-- ==== Sys2Proof/Word.lean ====
section
/-! DEFINITION. The widths of the machine: bytes and 16-bit words (R6, R10). -/

namespace Sys2Proof

/-- An 8-bit value `u8`: A, X, Y, S, P and every memory cell (R6, R10). -/
abbrev Byte := BitVec 8

/-- A 16-bit value `u16`: PC, CPU addresses and VRAM addresses (R6, R10). -/
abbrev Word := BitVec 16

end Sys2Proof
end

