-- ==== Sys2Proof/Syntax.lean ====
section
/-! DEFINITION. The instructions: one constructor per row of spec/opcode_table.json (R92). A one-byte
operand is the byte `b1` of R75 and a two-byte operand is the word `{b2, b1}`. -/

namespace Sys2Proof

/-- The 151 documented opcodes (R92), each with its operand bytes (R75). -/
inductive Instr where
  -- Load and store (R101 to R106)
  | ldaIzx (n : Byte)      -- LDA ($nn,X)
  | ldaZp (n : Byte)       -- LDA $nn
  | ldaImm (n : Byte)      -- LDA #$nn
  | ldaAbs (nn : Word)     -- LDA $nnnn
  | ldaIzy (n : Byte)      -- LDA ($nn),Y
  | ldaZpx (n : Byte)      -- LDA $nn,X
  | ldaAby (nn : Word)     -- LDA $nnnn,Y
  | ldaAbx (nn : Word)     -- LDA $nnnn,X
  | ldxImm (n : Byte)      -- LDX #$nn
  | ldxZp (n : Byte)       -- LDX $nn
  | ldxAbs (nn : Word)     -- LDX $nnnn
  | ldxZpy (n : Byte)      -- LDX $nn,Y
  | ldxAby (nn : Word)     -- LDX $nnnn,Y
  | ldyImm (n : Byte)      -- LDY #$nn
  | ldyZp (n : Byte)       -- LDY $nn
  | ldyAbs (nn : Word)     -- LDY $nnnn
  | ldyZpx (n : Byte)      -- LDY $nn,X
  | ldyAbx (nn : Word)     -- LDY $nnnn,X
  | staIzx (n : Byte)      -- STA ($nn,X)
  | staZp (n : Byte)       -- STA $nn
  | staAbs (nn : Word)     -- STA $nnnn
  | staIzy (n : Byte)      -- STA ($nn),Y
  | staZpx (n : Byte)      -- STA $nn,X
  | staAby (nn : Word)     -- STA $nnnn,Y
  | staAbx (nn : Word)     -- STA $nnnn,X
  | stxZp (n : Byte)       -- STX $nn
  | stxAbs (nn : Word)     -- STX $nnnn
  | stxZpy (n : Byte)      -- STX $nn,Y
  | styZp (n : Byte)       -- STY $nn
  | styAbs (nn : Word)     -- STY $nnnn
  | styZpx (n : Byte)      -- STY $nn,X
  -- Register transfer and stack (R107 to R116)
  | tax                    -- TAX
  | tay                    -- TAY
  | txa                    -- TXA
  | tya                    -- TYA
  | tsx                    -- TSX
  | txs                    -- TXS
  | pha                    -- PHA
  | php                    -- PHP
  | pla                    -- PLA
  | plp                    -- PLP
  -- Arithmetic (R117 to R120)
  | adcIzx (n : Byte)      -- ADC ($nn,X)
  | adcZp (n : Byte)       -- ADC $nn
  | adcImm (n : Byte)      -- ADC #$nn
  | adcAbs (nn : Word)     -- ADC $nnnn
  | adcIzy (n : Byte)      -- ADC ($nn),Y
  | adcZpx (n : Byte)      -- ADC $nn,X
  | adcAby (nn : Word)     -- ADC $nnnn,Y
  | adcAbx (nn : Word)     -- ADC $nnnn,X
  | sbcIzx (n : Byte)      -- SBC ($nn,X)
  | sbcZp (n : Byte)       -- SBC $nn
  | sbcImm (n : Byte)      -- SBC #$nn
  | sbcAbs (nn : Word)     -- SBC $nnnn
  | sbcIzy (n : Byte)      -- SBC ($nn),Y
  | sbcZpx (n : Byte)      -- SBC $nn,X
  | sbcAby (nn : Word)     -- SBC $nnnn,Y
  | sbcAbx (nn : Word)     -- SBC $nnnn,X
  -- Logic, compare, bit test (R121 to R127)
  | andIzx (n : Byte)      -- AND ($nn,X)
  | andZp (n : Byte)       -- AND $nn
  | andImm (n : Byte)      -- AND #$nn
  | andAbs (nn : Word)     -- AND $nnnn
  | andIzy (n : Byte)      -- AND ($nn),Y
  | andZpx (n : Byte)      -- AND $nn,X
  | andAby (nn : Word)     -- AND $nnnn,Y
  | andAbx (nn : Word)     -- AND $nnnn,X
  | oraIzx (n : Byte)      -- ORA ($nn,X)
  | oraZp (n : Byte)       -- ORA $nn
  | oraImm (n : Byte)      -- ORA #$nn
  | oraAbs (nn : Word)     -- ORA $nnnn
  | oraIzy (n : Byte)      -- ORA ($nn),Y
  | oraZpx (n : Byte)      -- ORA $nn,X
  | oraAby (nn : Word)     -- ORA $nnnn,Y
  | oraAbx (nn : Word)     -- ORA $nnnn,X
  | eorIzx (n : Byte)      -- EOR ($nn,X)
  | eorZp (n : Byte)       -- EOR $nn
  | eorImm (n : Byte)      -- EOR #$nn
  | eorAbs (nn : Word)     -- EOR $nnnn
  | eorIzy (n : Byte)      -- EOR ($nn),Y
  | eorZpx (n : Byte)      -- EOR $nn,X
  | eorAby (nn : Word)     -- EOR $nnnn,Y
  | eorAbx (nn : Word)     -- EOR $nnnn,X
  | cmpIzx (n : Byte)      -- CMP ($nn,X)
  | cmpZp (n : Byte)       -- CMP $nn
  | cmpImm (n : Byte)      -- CMP #$nn
  | cmpAbs (nn : Word)     -- CMP $nnnn
  | cmpIzy (n : Byte)      -- CMP ($nn),Y
  | cmpZpx (n : Byte)      -- CMP $nn,X
  | cmpAby (nn : Word)     -- CMP $nnnn,Y
  | cmpAbx (nn : Word)     -- CMP $nnnn,X
  | cpxImm (n : Byte)      -- CPX #$nn
  | cpxZp (n : Byte)       -- CPX $nn
  | cpxAbs (nn : Word)     -- CPX $nnnn
  | cpyImm (n : Byte)      -- CPY #$nn
  | cpyZp (n : Byte)       -- CPY $nn
  | cpyAbs (nn : Word)     -- CPY $nnnn
  | bitZp (n : Byte)       -- BIT $nn
  | bitAbs (nn : Word)     -- BIT $nnnn
  -- Increment, decrement (R128 to R133)
  | incZp (n : Byte)       -- INC $nn
  | incAbs (nn : Word)     -- INC $nnnn
  | incZpx (n : Byte)      -- INC $nn,X
  | incAbx (nn : Word)     -- INC $nnnn,X
  | decZp (n : Byte)       -- DEC $nn
  | decAbs (nn : Word)     -- DEC $nnnn
  | decZpx (n : Byte)      -- DEC $nn,X
  | decAbx (nn : Word)     -- DEC $nnnn,X
  | inx                    -- INX
  | iny                    -- INY
  | dex                    -- DEX
  | dey                    -- DEY
  -- Shift and rotate (R134 to R137)
  | aslZp (n : Byte)       -- ASL $nn
  | aslAcc                 -- ASL A
  | aslAbs (nn : Word)     -- ASL $nnnn
  | aslZpx (n : Byte)      -- ASL $nn,X
  | aslAbx (nn : Word)     -- ASL $nnnn,X
  | lsrZp (n : Byte)       -- LSR $nn
  | lsrAcc                 -- LSR A
  | lsrAbs (nn : Word)     -- LSR $nnnn
  | lsrZpx (n : Byte)      -- LSR $nn,X
  | lsrAbx (nn : Word)     -- LSR $nnnn,X
  | rolZp (n : Byte)       -- ROL $nn
  | rolAcc                 -- ROL A
  | rolAbs (nn : Word)     -- ROL $nnnn
  | rolZpx (n : Byte)      -- ROL $nn,X
  | rolAbx (nn : Word)     -- ROL $nnnn,X
  | rorZp (n : Byte)       -- ROR $nn
  | rorAcc                 -- ROR A
  | rorAbs (nn : Word)     -- ROR $nnnn
  | rorZpx (n : Byte)      -- ROR $nn,X
  | rorAbx (nn : Word)     -- ROR $nnnn,X
  -- Control (R138 to R153)
  | bcc (n : Byte)         -- BCC label
  | bcs (n : Byte)         -- BCS label
  | beq (n : Byte)         -- BEQ label
  | bmi (n : Byte)         -- BMI label
  | bne (n : Byte)         -- BNE label
  | bpl (n : Byte)         -- BPL label
  | bvc (n : Byte)         -- BVC label
  | bvs (n : Byte)         -- BVS label
  | jmpAbs (nn : Word)     -- JMP $nnnn
  | jmpInd (nn : Word)     -- JMP ($nnnn)
  | jsr (nn : Word)        -- JSR $nnnn
  | rts                    -- RTS
  | brk                    -- BRK
  | rti                    -- RTI
  | nop                    -- NOP
  -- Flags (R154 to R160)
  | clc                    -- CLC
  | sec                    -- SEC
  | cli                    -- CLI
  | sei                    -- SEI
  | cld                    -- CLD
  | sed                    -- SED
  | clv                    -- CLV
  deriving DecidableEq, Repr

end Sys2Proof
end

