-- ==== Sys2Proof/Decode.lean ====
section
/-! DEFINITION. The opcode table (R92), the decoder (R74, R75, R77, R93) and the encoder. -/

namespace Sys2Proof

/-- `{hi8, lo8}`: the 16-bit value `hi8 * 256 + lo8` (R9). -/
def joinBytes (hi lo : Byte) : Word := hi ++ lo

/-- `w[7:0]` (R9). -/
def lowByte (w : Word) : Byte := w.extractLsb' 0 8

/-- `w[15:8]` (R9). -/
def highByte (w : Word) : Byte := w.extractLsb' 8 8

/-- `zext16(v)` (R10). -/
def zext16 (v : Byte) : Word := v.setWidth 16

/-- `sext16(v)` (R10). -/
def sext16 (v : Byte) : Word := v.signExtend 16

/-- The three formats of R75, by how many operand bytes follow the opcode. -/
inductive Format where
  | one (i : Instr)
  | two (mk : Byte → Instr)
  | three (mk : Word → Instr)

/-- One row of R92: the opcode byte, its base cycle cost and its format. -/
structure Row where
  opcode : Byte
  cycles : Nat
  format : Format

/-- Load and store (R101 to R106): the rows of R92 and spec/opcode_table.json. -/
def loadStoreRows : List Row := [
  ⟨0xA1#8, 6, .two .ldaIzx⟩,
  ⟨0xA5#8, 3, .two .ldaZp⟩,
  ⟨0xA9#8, 2, .two .ldaImm⟩,
  ⟨0xAD#8, 4, .three .ldaAbs⟩,
  ⟨0xB1#8, 5, .two .ldaIzy⟩,
  ⟨0xB5#8, 4, .two .ldaZpx⟩,
  ⟨0xB9#8, 4, .three .ldaAby⟩,
  ⟨0xBD#8, 4, .three .ldaAbx⟩,
  ⟨0xA2#8, 2, .two .ldxImm⟩,
  ⟨0xA6#8, 3, .two .ldxZp⟩,
  ⟨0xAE#8, 4, .three .ldxAbs⟩,
  ⟨0xB6#8, 4, .two .ldxZpy⟩,
  ⟨0xBE#8, 4, .three .ldxAby⟩,
  ⟨0xA0#8, 2, .two .ldyImm⟩,
  ⟨0xA4#8, 3, .two .ldyZp⟩,
  ⟨0xAC#8, 4, .three .ldyAbs⟩,
  ⟨0xB4#8, 4, .two .ldyZpx⟩,
  ⟨0xBC#8, 4, .three .ldyAbx⟩,
  ⟨0x81#8, 6, .two .staIzx⟩,
  ⟨0x85#8, 3, .two .staZp⟩,
  ⟨0x8D#8, 4, .three .staAbs⟩,
  ⟨0x91#8, 6, .two .staIzy⟩,
  ⟨0x95#8, 4, .two .staZpx⟩,
  ⟨0x99#8, 5, .three .staAby⟩,
  ⟨0x9D#8, 5, .three .staAbx⟩,
  ⟨0x86#8, 3, .two .stxZp⟩,
  ⟨0x8E#8, 4, .three .stxAbs⟩,
  ⟨0x96#8, 4, .two .stxZpy⟩,
  ⟨0x84#8, 3, .two .styZp⟩,
  ⟨0x8C#8, 4, .three .styAbs⟩,
  ⟨0x94#8, 4, .two .styZpx⟩]

/-- Register transfer and stack (R107 to R116): the rows of R92 and spec/opcode_table.json. -/
def transferStackRows : List Row := [
  ⟨0xAA#8, 2, .one .tax⟩,
  ⟨0xA8#8, 2, .one .tay⟩,
  ⟨0x8A#8, 2, .one .txa⟩,
  ⟨0x98#8, 2, .one .tya⟩,
  ⟨0xBA#8, 2, .one .tsx⟩,
  ⟨0x9A#8, 2, .one .txs⟩,
  ⟨0x48#8, 3, .one .pha⟩,
  ⟨0x08#8, 3, .one .php⟩,
  ⟨0x68#8, 4, .one .pla⟩,
  ⟨0x28#8, 4, .one .plp⟩]

/-- Arithmetic (R117 to R120): the rows of R92 and spec/opcode_table.json. -/
def arithRows : List Row := [
  ⟨0x61#8, 6, .two .adcIzx⟩,
  ⟨0x65#8, 3, .two .adcZp⟩,
  ⟨0x69#8, 2, .two .adcImm⟩,
  ⟨0x6D#8, 4, .three .adcAbs⟩,
  ⟨0x71#8, 5, .two .adcIzy⟩,
  ⟨0x75#8, 4, .two .adcZpx⟩,
  ⟨0x79#8, 4, .three .adcAby⟩,
  ⟨0x7D#8, 4, .three .adcAbx⟩,
  ⟨0xE1#8, 6, .two .sbcIzx⟩,
  ⟨0xE5#8, 3, .two .sbcZp⟩,
  ⟨0xE9#8, 2, .two .sbcImm⟩,
  ⟨0xED#8, 4, .three .sbcAbs⟩,
  ⟨0xF1#8, 5, .two .sbcIzy⟩,
  ⟨0xF5#8, 4, .two .sbcZpx⟩,
  ⟨0xF9#8, 4, .three .sbcAby⟩,
  ⟨0xFD#8, 4, .three .sbcAbx⟩]

/-- Logic, compare, bit test (R121 to R127): the rows of R92 and spec/opcode_table.json. -/
def logicRows : List Row := [
  ⟨0x21#8, 6, .two .andIzx⟩,
  ⟨0x25#8, 3, .two .andZp⟩,
  ⟨0x29#8, 2, .two .andImm⟩,
  ⟨0x2D#8, 4, .three .andAbs⟩,
  ⟨0x31#8, 5, .two .andIzy⟩,
  ⟨0x35#8, 4, .two .andZpx⟩,
  ⟨0x39#8, 4, .three .andAby⟩,
  ⟨0x3D#8, 4, .three .andAbx⟩,
  ⟨0x01#8, 6, .two .oraIzx⟩,
  ⟨0x05#8, 3, .two .oraZp⟩,
  ⟨0x09#8, 2, .two .oraImm⟩,
  ⟨0x0D#8, 4, .three .oraAbs⟩,
  ⟨0x11#8, 5, .two .oraIzy⟩,
  ⟨0x15#8, 4, .two .oraZpx⟩,
  ⟨0x19#8, 4, .three .oraAby⟩,
  ⟨0x1D#8, 4, .three .oraAbx⟩,
  ⟨0x41#8, 6, .two .eorIzx⟩,
  ⟨0x45#8, 3, .two .eorZp⟩,
  ⟨0x49#8, 2, .two .eorImm⟩,
  ⟨0x4D#8, 4, .three .eorAbs⟩,
  ⟨0x51#8, 5, .two .eorIzy⟩,
  ⟨0x55#8, 4, .two .eorZpx⟩,
  ⟨0x59#8, 4, .three .eorAby⟩,
  ⟨0x5D#8, 4, .three .eorAbx⟩,
  ⟨0xC1#8, 6, .two .cmpIzx⟩,
  ⟨0xC5#8, 3, .two .cmpZp⟩,
  ⟨0xC9#8, 2, .two .cmpImm⟩,
  ⟨0xCD#8, 4, .three .cmpAbs⟩,
  ⟨0xD1#8, 5, .two .cmpIzy⟩,
  ⟨0xD5#8, 4, .two .cmpZpx⟩,
  ⟨0xD9#8, 4, .three .cmpAby⟩,
  ⟨0xDD#8, 4, .three .cmpAbx⟩,
  ⟨0xE0#8, 2, .two .cpxImm⟩,
  ⟨0xE4#8, 3, .two .cpxZp⟩,
  ⟨0xEC#8, 4, .three .cpxAbs⟩,
  ⟨0xC0#8, 2, .two .cpyImm⟩,
  ⟨0xC4#8, 3, .two .cpyZp⟩,
  ⟨0xCC#8, 4, .three .cpyAbs⟩,
  ⟨0x24#8, 3, .two .bitZp⟩,
  ⟨0x2C#8, 4, .three .bitAbs⟩]

/-- Increment, decrement (R128 to R133): the rows of R92 and spec/opcode_table.json. -/
def incDecRows : List Row := [
  ⟨0xE6#8, 5, .two .incZp⟩,
  ⟨0xEE#8, 6, .three .incAbs⟩,
  ⟨0xF6#8, 6, .two .incZpx⟩,
  ⟨0xFE#8, 7, .three .incAbx⟩,
  ⟨0xC6#8, 5, .two .decZp⟩,
  ⟨0xCE#8, 6, .three .decAbs⟩,
  ⟨0xD6#8, 6, .two .decZpx⟩,
  ⟨0xDE#8, 7, .three .decAbx⟩,
  ⟨0xE8#8, 2, .one .inx⟩,
  ⟨0xC8#8, 2, .one .iny⟩,
  ⟨0xCA#8, 2, .one .dex⟩,
  ⟨0x88#8, 2, .one .dey⟩]

/-- Shift and rotate (R134 to R137): the rows of R92 and spec/opcode_table.json. -/
def shiftRows : List Row := [
  ⟨0x06#8, 5, .two .aslZp⟩,
  ⟨0x0A#8, 2, .one .aslAcc⟩,
  ⟨0x0E#8, 6, .three .aslAbs⟩,
  ⟨0x16#8, 6, .two .aslZpx⟩,
  ⟨0x1E#8, 7, .three .aslAbx⟩,
  ⟨0x46#8, 5, .two .lsrZp⟩,
  ⟨0x4A#8, 2, .one .lsrAcc⟩,
  ⟨0x4E#8, 6, .three .lsrAbs⟩,
  ⟨0x56#8, 6, .two .lsrZpx⟩,
  ⟨0x5E#8, 7, .three .lsrAbx⟩,
  ⟨0x26#8, 5, .two .rolZp⟩,
  ⟨0x2A#8, 2, .one .rolAcc⟩,
  ⟨0x2E#8, 6, .three .rolAbs⟩,
  ⟨0x36#8, 6, .two .rolZpx⟩,
  ⟨0x3E#8, 7, .three .rolAbx⟩,
  ⟨0x66#8, 5, .two .rorZp⟩,
  ⟨0x6A#8, 2, .one .rorAcc⟩,
  ⟨0x6E#8, 6, .three .rorAbs⟩,
  ⟨0x76#8, 6, .two .rorZpx⟩,
  ⟨0x7E#8, 7, .three .rorAbx⟩]

/-- Control (R138 to R153): the rows of R92 and spec/opcode_table.json. -/
def controlRows : List Row := [
  ⟨0x90#8, 2, .two .bcc⟩,
  ⟨0xB0#8, 2, .two .bcs⟩,
  ⟨0xF0#8, 2, .two .beq⟩,
  ⟨0x30#8, 2, .two .bmi⟩,
  ⟨0xD0#8, 2, .two .bne⟩,
  ⟨0x10#8, 2, .two .bpl⟩,
  ⟨0x50#8, 2, .two .bvc⟩,
  ⟨0x70#8, 2, .two .bvs⟩,
  ⟨0x4C#8, 3, .three .jmpAbs⟩,
  ⟨0x6C#8, 5, .three .jmpInd⟩,
  ⟨0x20#8, 6, .three .jsr⟩,
  ⟨0x60#8, 6, .one .rts⟩,
  ⟨0x00#8, 7, .one .brk⟩,
  ⟨0x40#8, 6, .one .rti⟩,
  ⟨0xEA#8, 2, .one .nop⟩]

/-- Flags (R154 to R160): the rows of R92 and spec/opcode_table.json. -/
def flagRows : List Row := [
  ⟨0x18#8, 2, .one .clc⟩,
  ⟨0x38#8, 2, .one .sec⟩,
  ⟨0x58#8, 2, .one .cli⟩,
  ⟨0x78#8, 2, .one .sei⟩,
  ⟨0xD8#8, 2, .one .cld⟩,
  ⟨0xF8#8, 2, .one .sed⟩,
  ⟨0xB8#8, 2, .one .clv⟩]

/-- The opcode map of R92. -/
def opcodeTable : List Row :=
  loadStoreRows ++ transferStackRows ++ arithRows ++ logicRows ++ incDecRows ++ shiftRows ++ controlRows ++ flagRows

/-- The row of an opcode byte, if R92 has one. -/
def rowOf (op : Byte) : Option Row := opcodeTable.find? (fun r => r.opcode == op)

/-- The instruction length of a format (R74, R75). -/
def formatLength : Format → Nat
  | .one _ => 1
  | .two _ => 2
  | .three _ => 3

/-- Why a byte string is no instruction. -/
inductive Reject where
  /-- There is no opcode byte. -/
  | noBytes
  /-- The opcode byte has no row in R92 (R93). -/
  | unknownOpcode (op : Byte)
  /-- An operand byte that the length calls for is absent (log 19). -/
  | truncated
  deriving DecidableEq, Repr

/-- Operand assembly (R77): `b1` first, a word low byte first; the bytes left over are returned. -/
def takeOperands : Format → List Byte → Except Reject (Instr × List Byte)
  | .one i, rest => .ok (i, rest)
  | .two mk, b1 :: rest => .ok (mk b1, rest)
  | .three mk, b1 :: b2 :: rest => .ok (mk (joinBytes b2 b1), rest)
  | .two _, [] => .error .truncated
  | .three _, [] => .error .truncated
  | .three _, [_] => .error .truncated

/-- The decoder (R74, R93): the instruction a byte string begins with, and the bytes after it. -/
def decode : List Byte → Except Reject (Instr × List Byte)
  | [] => .error .noBytes
  | op :: rest =>
    match rowOf op with
    | none => .error (.unknownOpcode op)
    | some r => takeOperands r.format rest

/-- The bytes of an instruction, lowest address first (R75, R92). -/
def encode : Instr → List Byte
  | .ldaIzx n => [0xA1#8, n]
  | .ldaZp n => [0xA5#8, n]
  | .ldaImm n => [0xA9#8, n]
  | .ldaAbs nn => [0xAD#8, lowByte nn, highByte nn]
  | .ldaIzy n => [0xB1#8, n]
  | .ldaZpx n => [0xB5#8, n]
  | .ldaAby nn => [0xB9#8, lowByte nn, highByte nn]
  | .ldaAbx nn => [0xBD#8, lowByte nn, highByte nn]
  | .ldxImm n => [0xA2#8, n]
  | .ldxZp n => [0xA6#8, n]
  | .ldxAbs nn => [0xAE#8, lowByte nn, highByte nn]
  | .ldxZpy n => [0xB6#8, n]
  | .ldxAby nn => [0xBE#8, lowByte nn, highByte nn]
  | .ldyImm n => [0xA0#8, n]
  | .ldyZp n => [0xA4#8, n]
  | .ldyAbs nn => [0xAC#8, lowByte nn, highByte nn]
  | .ldyZpx n => [0xB4#8, n]
  | .ldyAbx nn => [0xBC#8, lowByte nn, highByte nn]
  | .staIzx n => [0x81#8, n]
  | .staZp n => [0x85#8, n]
  | .staAbs nn => [0x8D#8, lowByte nn, highByte nn]
  | .staIzy n => [0x91#8, n]
  | .staZpx n => [0x95#8, n]
  | .staAby nn => [0x99#8, lowByte nn, highByte nn]
  | .staAbx nn => [0x9D#8, lowByte nn, highByte nn]
  | .stxZp n => [0x86#8, n]
  | .stxAbs nn => [0x8E#8, lowByte nn, highByte nn]
  | .stxZpy n => [0x96#8, n]
  | .styZp n => [0x84#8, n]
  | .styAbs nn => [0x8C#8, lowByte nn, highByte nn]
  | .styZpx n => [0x94#8, n]
  | .tax => [0xAA#8]
  | .tay => [0xA8#8]
  | .txa => [0x8A#8]
  | .tya => [0x98#8]
  | .tsx => [0xBA#8]
  | .txs => [0x9A#8]
  | .pha => [0x48#8]
  | .php => [0x08#8]
  | .pla => [0x68#8]
  | .plp => [0x28#8]
  | .adcIzx n => [0x61#8, n]
  | .adcZp n => [0x65#8, n]
  | .adcImm n => [0x69#8, n]
  | .adcAbs nn => [0x6D#8, lowByte nn, highByte nn]
  | .adcIzy n => [0x71#8, n]
  | .adcZpx n => [0x75#8, n]
  | .adcAby nn => [0x79#8, lowByte nn, highByte nn]
  | .adcAbx nn => [0x7D#8, lowByte nn, highByte nn]
  | .sbcIzx n => [0xE1#8, n]
  | .sbcZp n => [0xE5#8, n]
  | .sbcImm n => [0xE9#8, n]
  | .sbcAbs nn => [0xED#8, lowByte nn, highByte nn]
  | .sbcIzy n => [0xF1#8, n]
  | .sbcZpx n => [0xF5#8, n]
  | .sbcAby nn => [0xF9#8, lowByte nn, highByte nn]
  | .sbcAbx nn => [0xFD#8, lowByte nn, highByte nn]
  | .andIzx n => [0x21#8, n]
  | .andZp n => [0x25#8, n]
  | .andImm n => [0x29#8, n]
  | .andAbs nn => [0x2D#8, lowByte nn, highByte nn]
  | .andIzy n => [0x31#8, n]
  | .andZpx n => [0x35#8, n]
  | .andAby nn => [0x39#8, lowByte nn, highByte nn]
  | .andAbx nn => [0x3D#8, lowByte nn, highByte nn]
  | .oraIzx n => [0x01#8, n]
  | .oraZp n => [0x05#8, n]
  | .oraImm n => [0x09#8, n]
  | .oraAbs nn => [0x0D#8, lowByte nn, highByte nn]
  | .oraIzy n => [0x11#8, n]
  | .oraZpx n => [0x15#8, n]
  | .oraAby nn => [0x19#8, lowByte nn, highByte nn]
  | .oraAbx nn => [0x1D#8, lowByte nn, highByte nn]
  | .eorIzx n => [0x41#8, n]
  | .eorZp n => [0x45#8, n]
  | .eorImm n => [0x49#8, n]
  | .eorAbs nn => [0x4D#8, lowByte nn, highByte nn]
  | .eorIzy n => [0x51#8, n]
  | .eorZpx n => [0x55#8, n]
  | .eorAby nn => [0x59#8, lowByte nn, highByte nn]
  | .eorAbx nn => [0x5D#8, lowByte nn, highByte nn]
  | .cmpIzx n => [0xC1#8, n]
  | .cmpZp n => [0xC5#8, n]
  | .cmpImm n => [0xC9#8, n]
  | .cmpAbs nn => [0xCD#8, lowByte nn, highByte nn]
  | .cmpIzy n => [0xD1#8, n]
  | .cmpZpx n => [0xD5#8, n]
  | .cmpAby nn => [0xD9#8, lowByte nn, highByte nn]
  | .cmpAbx nn => [0xDD#8, lowByte nn, highByte nn]
  | .cpxImm n => [0xE0#8, n]
  | .cpxZp n => [0xE4#8, n]
  | .cpxAbs nn => [0xEC#8, lowByte nn, highByte nn]
  | .cpyImm n => [0xC0#8, n]
  | .cpyZp n => [0xC4#8, n]
  | .cpyAbs nn => [0xCC#8, lowByte nn, highByte nn]
  | .bitZp n => [0x24#8, n]
  | .bitAbs nn => [0x2C#8, lowByte nn, highByte nn]
  | .incZp n => [0xE6#8, n]
  | .incAbs nn => [0xEE#8, lowByte nn, highByte nn]
  | .incZpx n => [0xF6#8, n]
  | .incAbx nn => [0xFE#8, lowByte nn, highByte nn]
  | .decZp n => [0xC6#8, n]
  | .decAbs nn => [0xCE#8, lowByte nn, highByte nn]
  | .decZpx n => [0xD6#8, n]
  | .decAbx nn => [0xDE#8, lowByte nn, highByte nn]
  | .inx => [0xE8#8]
  | .iny => [0xC8#8]
  | .dex => [0xCA#8]
  | .dey => [0x88#8]
  | .aslZp n => [0x06#8, n]
  | .aslAcc => [0x0A#8]
  | .aslAbs nn => [0x0E#8, lowByte nn, highByte nn]
  | .aslZpx n => [0x16#8, n]
  | .aslAbx nn => [0x1E#8, lowByte nn, highByte nn]
  | .lsrZp n => [0x46#8, n]
  | .lsrAcc => [0x4A#8]
  | .lsrAbs nn => [0x4E#8, lowByte nn, highByte nn]
  | .lsrZpx n => [0x56#8, n]
  | .lsrAbx nn => [0x5E#8, lowByte nn, highByte nn]
  | .rolZp n => [0x26#8, n]
  | .rolAcc => [0x2A#8]
  | .rolAbs nn => [0x2E#8, lowByte nn, highByte nn]
  | .rolZpx n => [0x36#8, n]
  | .rolAbx nn => [0x3E#8, lowByte nn, highByte nn]
  | .rorZp n => [0x66#8, n]
  | .rorAcc => [0x6A#8]
  | .rorAbs nn => [0x6E#8, lowByte nn, highByte nn]
  | .rorZpx n => [0x76#8, n]
  | .rorAbx nn => [0x7E#8, lowByte nn, highByte nn]
  | .bcc n => [0x90#8, n]
  | .bcs n => [0xB0#8, n]
  | .beq n => [0xF0#8, n]
  | .bmi n => [0x30#8, n]
  | .bne n => [0xD0#8, n]
  | .bpl n => [0x10#8, n]
  | .bvc n => [0x50#8, n]
  | .bvs n => [0x70#8, n]
  | .jmpAbs nn => [0x4C#8, lowByte nn, highByte nn]
  | .jmpInd nn => [0x6C#8, lowByte nn, highByte nn]
  | .jsr nn => [0x20#8, lowByte nn, highByte nn]
  | .rts => [0x60#8]
  | .brk => [0x00#8]
  | .rti => [0x40#8]
  | .nop => [0xEA#8]
  | .clc => [0x18#8]
  | .sec => [0x38#8]
  | .cli => [0x58#8]
  | .sei => [0x78#8]
  | .cld => [0xD8#8]
  | .sed => [0xF8#8]
  | .clv => [0xB8#8]

/-- The opcode byte of an instruction (R92). -/
def Instr.opcode (i : Instr) : Byte := (encode i).headD 0x00#8

/-- The length of an instruction in bytes (R74). -/
def Instr.length (i : Instr) : Nat := (encode i).length

/-- The base cycle cost of an instruction's row (R92, R99). -/
def Instr.baseCycles (i : Instr) : Nat :=
  match rowOf i.opcode with
  | some r => r.cycles
  | none => 0

/-- Byte `k` of a word numbered as spec/opcode_table.json numbers it, of which `nbits` bits are given
and every higher bit is 0: bits 7..0 are the first byte, bits 15..8 the second, bits 23..16 the
third. -/
def tableByte (nbits w k : Nat) : Byte := BitVec.ofNat 8 (w % 2 ^ nbits / 256 ^ k)

/-- The three bytes of such a word, lowest address first. -/
def tableBytes (nbits w : Nat) : List Byte :=
  [tableByte nbits w 0, tableByte nbits w 1, tableByte nbits w 2]

/-- What the decoder reads from an instruction whose bits are `w`. -/
def decodeTableWord (nbits w : Nat) : Option Instr :=
  match decode (tableBytes nbits w) with
  | .ok (i, _) => some i
  | .error _ => none

end Sys2Proof
end

