-- ==== Sys2Proof/Config.lean ====
section
/-! DEFINITION. What an implementation fixes: the configuration parameters of R7, and the one free
value of the machine, the oracle IO_READ of R8. -/

namespace Sys2Proof

/-- `V_FLAG_MODE` (R7, R25). -/
inductive VFlagMode where
  | absent | nmos
  deriving DecidableEq, Repr

/-- `B_FLAG_MODE` (R7, R24). -/
inductive BFlagMode where
  | absent | nmos
  deriving DecidableEq, Repr

/-- `CMP_CARRY_MODE` (R7, R124). -/
inductive CmpCarryMode where
  | sticky | nmos
  deriving DecidableEq, Repr

/-- `INT_MODE` (R7, R169, R170). -/
inductive IntMode where
  | gatedAll | nmos
  deriving DecidableEq, Repr

/-- `DECIMAL_MODE` (R7, R117 to R120). -/
inductive DecimalMode where
  | off | nmos
  deriving DecidableEq, Repr

/-- `INDEX_PAGE_PENALTY` (R7, R99). -/
inductive PagePenalty where
  | off | on
  deriving DecidableEq, Repr

/-- `ROM_WRITE_MODE` (R7, R52). -/
inductive RomWriteMode where
  | fault | ignore
  deriving DecidableEq, Repr

/-- `PPUDATA_READ_MODE` (R7, R191). -/
inductive PpuDataReadMode where
  | literal | buffered
  deriving DecidableEq, Repr

/-- The configuration parameters of R7, fixed for one machine. The default of every field is R7's
default. `OPCODE_SET` is given by what it leaves out: the documented opcodes a configuration removes
(log 2). The domain of `LINE_DOTS` (at least 341) is `Config.wf` (log 20). -/
structure Config where
  opcodesRemoved  : List Byte       := []
  vFlagMode       : VFlagMode       := .absent
  bFlagMode       : BFlagMode       := .absent
  cmpCarryMode    : CmpCarryMode    := .sticky
  intMode         : IntMode         := .gatedAll
  decimalMode     : DecimalMode     := .off
  pagePenalty     : PagePenalty     := .off
  returnOffset    : Word            := 0x0000#16
  intCycles       : Nat             := 7
  romWriteMode    : RomWriteMode    := .fault
  ppuDataReadMode : PpuDataReadMode := .literal
  dmaCycles       : Nat             := 0
  lineDots        : Nat             := 341
  deriving DecidableEq, Repr

/-- Every parameter at R7's default. -/
def Config.default : Config := {}

/-- `LINE_DOTS` is a natural number of at least 341 (R7, C13). -/
abbrev Config.wf (c : Config) : Prop := 341 ≤ c.lineDots

/-- `LINES_PER_FRAME` (R6). -/
def Config.linesPerFrame : Nat := 262

/-- `DOTS_PER_CPU_CYCLE` (R6). -/
def Config.dotsPerCycle : Nat := 3

/-- `FETCH_PHASES` (R6). -/
def Config.fetchPhases : Nat := 170

/-- The oracle `IO_READ` (R8, R49, I16): the byte a read of the I/O region returns, given the read's
sequence number and address. FREE VALUE (log 3): nothing constrains it. -/
opaque Config.ioRead : Nat → Word → Byte

end Sys2Proof
end

