-- ==== Sys2Proof/Machine/State.lean ====
section
/-! DEFINITION. The state of the machine (10_state.md), its faults (R161 to R164), its refusals (R196)
and the state after reset (R197 to R199). -/

namespace Sys2Proof.Machine

open Sys2Proof

/-- A memory array: its written cells, addresses strictly rising, none equal to what an unlisted
address reads as (`Memory.wf`). -/
abbrev Memory := List Host.Cell

/-- What an unlisted cell of any array reads as: 0x00 (log 5, R197 "may take all zeros"). -/
def unlisted : Byte := 0x00#8

/-- The canonical form of a memory array. -/
abbrev Memory.wf (m : Memory) : Prop :=
  m.Pairwise (fun p q => p.1 < q.1) ∧ ∀ p ∈ m, p.2 ≠ unlisted

/-- Every listed address lies inside an array of `size` bytes. -/
abbrev Memory.within (size : Nat) (m : Memory) : Prop := ∀ p ∈ m, p.1 < size

/-- The CPU register file (R15 to R19): A, X, Y, S, P and PC. -/
structure Cpu where
  a  : Byte
  x  : Byte
  y  : Byte
  /-- The stack pointer `S` (R17). -/
  sp : Byte
  /-- The status register `P` (R19): C Z I D B - V N from bit 0 to bit 7. -/
  p  : Byte
  pc : Word
  deriving DecidableEq, Repr

/-- The interrupt kinds (R166). -/
inductive Interrupt where
  | reset | nmi | irq
  deriving DecidableEq, Repr

/-- The direction of a bus access (R29). -/
inductive Dir where
  | read | write
  deriving DecidableEq, Repr

/-- The fault record (R29, R161). -/
inductive FaultRecord where
  | addressOutOfRange (addr : Word) (dir : Dir)
  | unknownOpcode (pc : Word) (opcode : Byte)
  deriving DecidableEq, Repr

/-- How many 16 KiB PRG banks the cartridge has (R8, R51). -/
inductive PrgBanks where
  | one | two
  deriving DecidableEq, Repr

/-- `|PRG|` in bytes (R8). -/
def PrgBanks.size : PrgBanks → Nat
  | .one => 16384
  | .two => 32768

/-- The read-only cartridge inputs (R8, R32). -/
structure Cartridge where
  banks : PrgBanks
  prg   : Memory
  chr   : Memory
  deriving DecidableEq, Repr

/-- PPU timing state (R33). -/
structure PpuTiming where
  /-- `frame_dots`. -/
  frameDots : Nat
  /-- `line_dots`. -/
  lineDots  : Nat
  /-- `current_scanline`. -/
  scanline  : Nat
  /-- `memory_fetch_phase`. -/
  phase     : Nat
  deriving DecidableEq, Repr

/-- `vram_increment`, 1 or 32 (R34). -/
inductive Increment where
  | by1 | by32
  deriving DecidableEq, Repr

/-- A pattern-table base, 0x0000 or 0x1000 (R34). -/
inductive PatternBase where
  | at0000 | at1000
  deriving DecidableEq, Repr

/-- `sprite_size`, 8x8 or 8x16 (R34). -/
inductive SpriteSize where
  | size8x8 | size8x16
  deriving DecidableEq, Repr

/-- PPU control state (R34). -/
structure PpuControl where
  nametable  : BitVec 2
  increment  : Increment
  spriteBase : PatternBase
  bgBase     : PatternBase
  spriteSize : SpriteSize
  nmiEnable  : Bool
  monochrome : Bool
  deriving DecidableEq, Repr

/-- The half the next 0x2006 write fills (R35). -/
inductive LatchHalf where
  | high | low
  deriving DecidableEq, Repr

/-- PPU cursors and latch (R35). -/
structure PpuCursors where
  vramPtr   : Word
  latchHi   : Byte
  latchLo   : Byte
  latchNext : LatchHalf
  oamCursor : Byte
  deriving DecidableEq, Repr

/-- The machine. `cycles` and `cfg` are the model's own fields: `cycles` is the number of CPU cycles
the last step reported (R97, R169; log 8), `cfg` the parameters of R7, which no step changes (R36;
log 1). -/
structure State where
  cpu     : Cpu
  /-- The pending-interrupt slot (R28). -/
  pending : Option Interrupt
  /-- The recorded fault (R29). -/
  fault   : Option FaultRecord
  /-- The pause flag (R30). -/
  paused  : Bool
  /-- `io_seq` (R31). -/
  ioSeq   : Nat
  /-- CPU internal RAM, 2048 bytes (R32). -/
  ram     : Memory
  /-- The PPU register cells 0x2000 to 0x2007, 8 bytes (R32). -/
  ppuReg  : Memory
  /-- 65536 bytes (R32, R62). -/
  vram    : Memory
  /-- 256 bytes (R32, R67). -/
  oam     : Memory
  cart    : Cartridge
  timing  : PpuTiming
  control : PpuControl
  cursors : PpuCursors
  cycles  : Nat
  cfg     : Config
  deriving DecidableEq, Repr

/-- The faults of a running core (R161). Each carries the state the fault leaves (R164; log 9), whose
`fault` field holds the record. -/
inductive Fault where
  /-- Raised by `read8` and `write8` for an unmapped address, by `write8` for a PRG address under
  `ROM_WRITE_MODE = fault`, and by an OAM DMA from an unmapped source (R162). The spec names this stop,
  so stopping is exact; safe. -/
  | addressOutOfRange (addr : Word) (dir : Dir) (left : State)
  /-- Raised by the fetch when the byte at PC is not in `OPCODE_SET` (R163). The spec names this stop,
  so stopping is exact; safe. -/
  | unknownOpcode (pc : Word) (opcode : Byte) (left : State)
  deriving DecidableEq, Repr

/-- The refusals. -/
inductive Refusal where
  /-- Raised by an arm of `exec` whose instruction has no meaning yet; no arm is one now. Safe. -/
  | notModelled (mnemonic : String)
  /-- Raised by `launch` for a cartridge image with a bad magic or too few bytes (R196). Safe. -/
  | corruptRomImage
  /-- Raised by `launch` for a mapper other than 0, and with number 0 for a bank count that mapper 0
  cannot place (R196). Safe. -/
  | unsupportedMapper (number : Byte)
  deriving DecidableEq, Repr

/-- The outcome of an instruction or of a step (R13). -/
abbrev Result := Host.Outcome State Fault Refusal

/-- The outcome of one or more bus accesses: a value and the state after them, or the fault record and
the state as the accesses before the faulting one left it (R164). -/
inductive Res (α : Type) where
  | ok (v : α) (s : State)
  | err (r : FaultRecord) (s : State)

/-- The PPU state after PPU reset (R198). -/
def PpuTiming.reset : PpuTiming := { frameDots := 0, lineDots := 0, scanline := 0, phase := 1 }

/-- The PPU control state after PPU reset (R198). -/
def PpuControl.reset : PpuControl :=
  { nametable := 0#2, increment := .by1, spriteBase := .at0000, bgBase := .at0000,
    spriteSize := .size8x8, nmiEnable := false, monochrome := false }

/-- The PPU cursors after PPU reset (R198). -/
def PpuCursors.reset : PpuCursors :=
  { vramPtr := 0x0000#16, latchHi := 0x00#8, latchLo := 0x00#8, latchNext := .high,
    oamCursor := 0x00#8 }

/-- The machine right after power-on (R197 to R199), for the launch inputs of log 4 (registers), log 5
(memories) and log 6 (a blank cartridge), under the default parameters of R7. -/
def State.reset : State where
  cpu := { a := 0x00#8, x := 0x00#8, y := 0x00#8, sp := 0xFD#8, p := 0x34#8, pc := 0x0000#16 }
  pending := none
  fault := none
  paused := false
  ioSeq := 0
  ram := []
  ppuReg := []
  vram := []
  oam := []
  cart := { banks := .one, prg := [], chr := [] }
  timing := PpuTiming.reset
  control := PpuControl.reset
  cursors := PpuCursors.reset
  cycles := 0
  cfg := Config.default

end Sys2Proof.Machine
end

