-- ==== Sys2Proof/Machine/Memory.lean ====
section
/-! DEFINITION. Reading and writing one cell of a memory array in its canonical form. -/

namespace Sys2Proof.Machine

open Sys2Proof

/-- The byte of cell `a`. -/
def Memory.read : Memory → Nat → Byte
  | [], _ => unlisted
  | (k, v) :: m, a => if k = a then v else Memory.read m a

/-- Put a cell in front of an array, unless it holds what an unlisted cell reads as. -/
def Memory.consCell (a : Nat) (v : Byte) (m : Memory) : Memory :=
  if v = unlisted then m else (a, v) :: m

/-- Store `v` in cell `a`, keeping the canonical form. -/
def Memory.write : Memory → Nat → Byte → Memory
  | [], a, v => Memory.consCell a v []
  | (k, w) :: m, a, v =>
    if a < k then Memory.consCell a v ((k, w) :: m)
    else if a = k then Memory.consCell a v m
    else (k, w) :: Memory.write m a v

/-- The array whose cells from `a` on are the given bytes (a block write, R43). -/
def Memory.ofBytes (a : Nat) : List Byte → Memory
  | [] => []
  | v :: vs => Memory.consCell a v (Memory.ofBytes (a + 1) vs)

/-- Cells `0 .. size - 1` of `low` over the cells from `size` on of `high` (the CHR load, R66). -/
def Memory.overlay (size : Nat) (low high : Memory) : Memory :=
  low ++ high.filter (fun c => size ≤ c.1)

end Sys2Proof.Machine
end

