-- ==== Sys2Proof/Machine/Mirror.lean ====
section
/-! DEFINITION. Mirror rules (R41, R42), the RAM mirror set (R46) and the VRAM mirror set (R63). -/

namespace Sys2Proof.Machine

open Sys2Proof

/-- A one-directional mirror rule (R41): the ranges of `size` cells from `source` and from `target`. -/
structure MirrorRule where
  source : Nat
  target : Nat
  size   : Nat
  deriving DecidableEq, Repr

/-- Where one rule copies a write at `a` to, if `a` is in its source range (R41). -/
def mirrorTarget (r : MirrorRule) (a : Nat) : Option Nat :=
  if r.source ≤ a ∧ a < r.source + r.size then some (r.target + (a - r.source)) else none

/-- The two rules of a two-sided mirror (R42). -/
def twoSidedMirror (r : MirrorRule) : List MirrorRule :=
  [r, { source := r.target, target := r.source, size := r.size }]

/-- A write under a rule set: the canonical cell, then every rule whose source range holds the address,
in order, one hop (R39, R41). -/
def mirroredWrite (rules : List MirrorRule) (m : Memory) (a : Nat) (v : Byte) : Memory :=
  (rules.filterMap (fun r => mirrorTarget r a)).foldl (fun m b => Memory.write m b v)
    (Memory.write m a v)

/-- The twelve rules that join the four 2 KiB copies of RAM, one per ordered pair of distinct copies
(R46, D18). The machine keeps one copy: `ramMirrors_reach` of Laws says which cells a write reaches (log 13). -/
def ramMirrorRules : List MirrorRule :=
  twoSidedMirror { source := 0x0000, target := 0x0800, size := 0x0800 } ++
  twoSidedMirror { source := 0x0000, target := 0x1000, size := 0x0800 } ++
  twoSidedMirror { source := 0x0000, target := 0x1800, size := 0x0800 } ++
  twoSidedMirror { source := 0x0800, target := 0x1000, size := 0x0800 } ++
  twoSidedMirror { source := 0x0800, target := 0x1800, size := 0x0800 } ++
  twoSidedMirror { source := 0x1000, target := 0x1800, size := 0x0800 }

/-- The palette entries that share a cell with entry `e` (R63 `E`). -/
def paletteEntries (e : Word) : List Word :=
  if e &&& 0x0003#16 = 0x0000#16 then [e, e ^^^ 0x0010#16] else [e]

/-- R63 `class(c)`, for `c` in 0x0000 to 0x3FFF. -/
def vramClass (c : Word) : List Word :=
  if 0x3F00 ≤ c.toNat then
    (List.range 8).flatMap fun k =>
      (paletteEntries (c &&& 0x001F#16)).map fun e => 0x3F00#16 ||| BitVec.ofNat 16 (k * 32) ||| e
  else [c]

/-- R63 `targets(a)`: the other VRAM cells a write at `a` also writes. -/
def vramTargets (a : Word) : List Word :=
  if 0x8000 ≤ a.toNat then []
  else
    ((vramClass (a &&& 0x3FFF#16)).flatMap fun c => [c, c ||| 0x4000#16]).filter (fun b => b ≠ a)

end Sys2Proof.Machine
end

