-- ==== Sys2Proof/Machine/Bus.lean ====
section
/-! DEFINITION. The CPU bus: the decode map (R45), the register bridge (R185 to R194), `Read8` (R53) and
`Write8` (R54). -/

namespace Sys2Proof.Machine

open Sys2Proof

/-- Go on after an access, or pass its fault on (R164). -/
def Res.andThen {α β : Type} (r : Res α) (k : α → State → Res β) : Res β :=
  match r with
  | .ok v s => k v s
  | .err f s => .err f s

/-- The regions of the decode map (R45), each with the index of the cell inside it. -/
inductive Region where
  /-- RAM and its mirrors, 0x0000 to 0x1FFF. -/
  | ram (i : Nat)
  /-- The PPU register cells, 0x2000 to 0x2007. -/
  | ppuReg (i : Nat)
  /-- The I/O region, 0x4000 to 0x401F. -/
  | io
  /-- The PRG window, 0x8000 to 0xFFFF, with the offset from 0x8000. -/
  | prg (i : Nat)
  /-- 0x2008 to 0x3FFF and 0x4020 to 0x7FFF. -/
  | unmapped
  deriving DecidableEq, Repr

/-- The CPU decode map (R45). -/
def regionOf (a : Word) : Region :=
  if a.toNat < 0x2000 then .ram (a.toNat % 0x0800)
  else if a.toNat < 0x2008 then .ppuReg (a.toNat - 0x2000)
  else if a.toNat < 0x4000 then .unmapped
  else if a.toNat < 0x4020 then .io
  else if a.toNat < 0x8000 then .unmapped
  else .prg (a.toNat - 0x8000)

/-- A byte of the PRG window at offset `i` (R51): `PRG[i mod |PRG|]`. -/
def prgByte (c : Cartridge) (i : Nat) : Byte := Memory.read c.prg (i % c.banks.size)

/-- The cell part of `Read8` (R53), without a read observer: what `dma_read` (R194) reads. An I/O read
draws from the oracle and advances `io_seq` (R49). -/
def readCell (a : Word) (s : State) : Res Byte :=
  match regionOf a with
  | .ram i => .ok (Memory.read s.ram i) s
  | .ppuReg i => .ok (Memory.read s.ppuReg i) s
  | .io => .ok (Config.ioRead s.ioSeq a) { s with ioSeq := s.ioSeq + 1 }
  | .prg i => .ok (prgByte s.cart i) s
  | .unmapped => .err (.addressOutOfRange a .read) s

/-- `VramRead(a)` (R65). -/
def vramRead (a : Word) (s : State) : Byte := Memory.read s.vram a.toNat

/-- `VramWrite(a, v)` (R64): the cell, then its mirror targets. -/
def vramWrite (a : Word) (v : Byte) (s : State) : State :=
  let written := Memory.write s.vram a.toNat v
  { s with vram := (vramTargets a).foldl (fun m b => Memory.write m b.toNat v) written }

/-- `vram_increment` as a number (R34). -/
def incrementValue : Increment → Word
  | .by1 => 1#16
  | .by32 => 32#16

/-- `vram_ptr <- (vram_ptr + vram_increment) mod 65536` (R190, R191). -/
def advanceVramPtr (s : State) : State :=
  { s with cursors := { s.cursors with
      vramPtr := s.cursors.vramPtr + incrementValue s.control.increment } }

/-- Store a byte in a PPU register cell. -/
def writePpuReg (i : Nat) (v : Byte) (s : State) : State :=
  { s with ppuReg := Memory.write s.ppuReg i v }

/-- The control register write (R186). Bit 6 is ignored. -/
def onWrite2000 (v : Byte) (s : State) : State :=
  { s with control := { s.control with
      nametable := v.extractLsb' 0 2
      increment := if v.getLsbD 2 then .by32 else .by1
      spriteBase := if v.getLsbD 3 then .at1000 else .at0000
      bgBase := if v.getLsbD 4 then .at1000 else .at0000
      spriteSize := if v.getLsbD 5 then .size8x16 else .size8x8
      nmiEnable := v.getLsbD 7 } }

/-- The mask register write (R187). -/
def onWrite2001 (v : Byte) (s : State) : State :=
  { s with control := { s.control with monochrome := v.getLsbD 0 } }

/-- The status register read (R188): the vblank bit is cleared and the latch is reset. -/
def onRead2002 (s : State) : State :=
  let t := writePpuReg 2 (Memory.read s.ppuReg 2 &&& 0x7F#8) s
  { t with cursors := { t.cursors with
      latchHi := 0x00#8, latchLo := 0x00#8, latchNext := .high } }

/-- The sprite address port write (R192). -/
def onWrite2003 (v : Byte) (s : State) : State :=
  { s with cursors := { s.cursors with oamCursor := v } }

/-- The sprite data port write (R193). -/
def onWrite2004 (v : Byte) (s : State) : State :=
  { s with
    oam := Memory.write s.oam s.cursors.oamCursor.toNat v
    cursors := { s.cursors with oamCursor := s.cursors.oamCursor + 1#8 } }

/-- The VRAM address latch write (R189): high byte, then low byte and the pointer. -/
def onWrite2006 (v : Byte) (s : State) : State :=
  match s.cursors.latchNext with
  | .high => { s with cursors := { s.cursors with latchHi := v, latchNext := .low } }
  | .low => { s with cursors := { s.cursors with
      latchLo := v, latchNext := .high, vramPtr := joinBytes s.cursors.latchHi v } }

/-- The VRAM data port write (R190). -/
def onWrite2007 (v : Byte) (s : State) : State :=
  advanceVramPtr (vramWrite s.cursors.vramPtr v s)

/-- The VRAM data port read (R191), after the reader has received `v`. -/
def onRead2007 (v : Byte) (s : State) : State :=
  match s.cfg.ppuDataReadMode with
  | .literal => advanceVramPtr (vramWrite s.cursors.vramPtr v s)
  | .buffered => advanceVramPtr (writePpuReg 7 (vramRead s.cursors.vramPtr s) s)

/-- The read observers (R185), by the low bits of the register address. -/
def notifyRead (i : Nat) (v : Byte) (s : State) : State :=
  match i with
  | 2 => onRead2002 s
  | 7 => onRead2007 v s
  | _ => s

/-- The write observers at 0x2000 to 0x2007 (R185). 0x2002 and 0x2005 have none. -/
def notifyWrite (i : Nat) (v : Byte) (s : State) : State :=
  match i with
  | 0 => onWrite2000 v s
  | 1 => onWrite2001 v s
  | 3 => onWrite2003 v s
  | 4 => onWrite2004 v s
  | 6 => onWrite2006 v s
  | 7 => onWrite2007 v s
  | _ => s

/-- The part of the OAM DMA copy (R194) that fills `n` cells from `OAM[i]` on, from page `v`. -/
def dmaCopy (v : Byte) : Nat → Nat → State → Res Unit
  | 0, _, s => .ok () s
  | n + 1, i, s =>
    (readCell (joinBytes v (BitVec.ofNat 8 i)) s).andThen fun b t =>
      dmaCopy v n (i + 1) { t with oam := Memory.write t.oam i b }

/-- The DMA register write (R194): the whole 256-byte copy. -/
def onWrite4014 (v : Byte) (s : State) : Res Unit := dmaCopy v 256 0 s

/-- `Read8(a)` (R53): the cell's value, then the read observer. -/
def read8 (a : Word) (s : State) : Res Byte :=
  (readCell a s).andThen fun v t =>
    match regionOf a with
    | .ppuReg i => .ok v (notifyRead i v t)
    | _ => .ok v t

/-- `Write8(a, v)` (R54): the cell, then the write observer. -/
def write8 (a : Word) (v : Byte) (s : State) : Res Unit :=
  match regionOf a with
  | .ram i => .ok () { s with ram := Memory.write s.ram i v }
  | .ppuReg i => .ok () (notifyWrite i v (writePpuReg i v s))
  | .io => if a = 0x4014#16 then onWrite4014 v s else .ok () s
  | .prg _ =>
    match s.cfg.romWriteMode with
    | .fault => .err (.addressOutOfRange a .write) s
    | .ignore => .ok () s
  | .unmapped => .err (.addressOutOfRange a .write) s

/-- `Read16(a)` (R55): two byte reads, low byte first. -/
def read16 (a : Word) (s : State) : Res Word :=
  (read8 a s).andThen fun lo t =>
    (read8 (a + 1#16) t).andThen fun hi u => .ok (joinBytes hi lo) u

end Sys2Proof.Machine
end

