-- ==== Sys2Proof/Machine/Flags.lean ====
section
/-! DEFINITION. The status register `P` (R19 to R27) and every flag computation of the instruction
rules (R114 to R137). A computation with a result answers the pair (result, new P). -/

namespace Sys2Proof.Machine

open Sys2Proof

/-- The bits of `P` (R19). -/
inductive Flag where
  | c | z | i | d | b | bit5 | v | n
  deriving DecidableEq, Repr

/-- The mask of a bit of `P` (R11, R19). -/
def flagMask : Flag → Byte
  | .c => 0x01#8
  | .z => 0x02#8
  | .i => 0x04#8
  | .d => 0x08#8
  | .b => 0x10#8
  | .bit5 => 0x20#8
  | .v => 0x40#8
  | .n => 0x80#8

/-- The value of a flag. -/
def getFlag (f : Flag) (p : Byte) : Bool := p &&& flagMask f != 0x00#8

/-- `P` with one flag written. -/
def setFlag (f : Flag) (b : Bool) (p : Byte) : Byte :=
  if b then p ||| flagMask f else p &&& ~~~flagMask f

/-- `setNZ(v)` (R11, R21, R26). -/
def setNZ (v p : Byte) : Byte := setFlag .n v.msb (setFlag .z (v == 0x00#8) p)

/-- A flag as the integer 0 or 1. -/
def flagNat (f : Flag) (p : Byte) : Nat := if getFlag f p then 1 else 0

/-- Write V only under `V_FLAG_MODE = nmos` (R25). -/
def setV (cfg : Config) (b : Bool) (p : Byte) : Byte :=
  match cfg.vFlagMode with
  | .absent => p
  | .nmos => setFlag .v b p

/-- The binary sum of R117 and R119: `a + m + C`, with V, C, Z and N. -/
def addBinary (cfg : Config) (a m p : Byte) : Byte × Byte :=
  let sum := a.toNat + m.toNat + flagNat .c p
  let r : Byte := BitVec.ofNat 8 sum
  (r, setNZ r (setFlag .c (0xFF < sum) (setV cfg ((a ^^^ r) &&& (m ^^^ r)).msb p)))

/-- `adc_dec(M)` (R118): C and A from `t`, Z from the binary sum, N and V from the signed `sg`. -/
def adcDecimal (cfg : Config) (a m p : Byte) : Byte × Byte :=
  let carry := flagNat .c p
  let bin : Byte := BitVec.ofNat 8 (a.toNat + m.toNat + carry)
  let lo0 := (a &&& 0x0F#8).toNat + (m &&& 0x0F#8).toNat + carry
  let lo := if 0x0A ≤ lo0 then (lo0 + 0x06) % 16 + 0x10 else lo0
  let t0 := (a &&& 0xF0#8).toNat + (m &&& 0xF0#8).toNat + lo
  let sg : Int := (a &&& 0xF0#8).toInt + (m &&& 0xF0#8).toInt + lo
  let t := if 0xA0 ≤ t0 then t0 + 0x60 else t0
  (BitVec.ofNat 8 t,
    setV cfg (sg < -128 || 127 < sg)
      (setFlag .n (BitVec.ofInt 8 sg).msb
        (setFlag .z (bin == 0x00#8) (setFlag .c (0x100 ≤ t) p))))

/-- `sbc_dec(M)` (R120): the flags of the binary difference, A from the decimal one. On integers
`x & 0x0F` is `x mod 16`. -/
def sbcDecimal (cfg : Config) (a m p : Byte) : Byte × Byte :=
  let lo0 : Int := (a &&& 0x0F#8).toNat - (m &&& 0x0F#8).toNat + flagNat .c p - 1
  let lo : Int := if lo0 < 0 then (lo0 - 0x06) % 16 - 0x10 else lo0
  let t0 : Int := (a &&& 0xF0#8).toNat - (m &&& 0xF0#8).toNat + lo
  let t : Int := if t0 < 0 then t0 - 0x60 else t0
  (BitVec.ofInt 8 t, (addBinary cfg a (~~~m) p).2)

/-- Whether ADC and SBC are decimal (R117, R119). -/
def decimalOn (cfg : Config) (p : Byte) : Bool :=
  match cfg.decimalMode with
  | .off => false
  | .nmos => getFlag .d p

/-- ADC (R117). -/
def adcAlu (cfg : Config) (a m p : Byte) : Byte × Byte :=
  if decimalOn cfg p then adcDecimal cfg a m p else addBinary cfg a m p

/-- SBC (R119): the binary form adds the complement of `m`. -/
def sbcAlu (cfg : Config) (a m p : Byte) : Byte × Byte :=
  if decimalOn cfg p then sbcDecimal cfg a m p else addBinary cfg a (~~~m) p

/-- `P` after CPX or CPY (R125, R126; log 23): Z and N of `r - m`, C written both ways. -/
def compareFlags (r m p : Byte) : Byte := setFlag .c (m.toNat ≤ r.toNat) (setNZ (r - m) p)

/-- `P` after CMP (R124): under `CMP_CARRY_MODE = sticky` C is only ever set. -/
def cmpFlags (cfg : Config) (a m p : Byte) : Byte :=
  match cfg.cmpCarryMode with
  | .sticky => if m.toNat ≤ a.toNat then setFlag .c true (setNZ (a - m) p) else setNZ (a - m) p
  | .nmos => compareFlags a m p

/-- `P` after BIT (R127): Z of `A & M`, N and (under `nmos`) V from the operand. -/
def bitFlags (cfg : Config) (a m p : Byte) : Byte :=
  setV cfg (m.getLsbD 6) (setFlag .n m.msb (setFlag .z (a &&& m == 0x00#8) p))

/-- INC, INX, INY (R128, R130, R131). -/
def incAlu (v p : Byte) : Byte × Byte := (v + 1#8, setNZ (v + 1#8) p)

/-- DEC, DEX, DEY (R129, R132, R133). -/
def decAlu (v p : Byte) : Byte × Byte := (v - 1#8, setNZ (v - 1#8) p)

/-- ASL (R134). -/
def aslAlu (v p : Byte) : Byte × Byte :=
  (v <<< 1, setNZ (v <<< 1) (setFlag .c (v.getLsbD 7) p))

/-- LSR (R135). -/
def lsrAlu (v p : Byte) : Byte × Byte :=
  (v >>> 1, setNZ (v >>> 1) (setFlag .c (v.getLsbD 0) p))

/-- ROL (R136): the old carry enters bit 0. -/
def rolAlu (v p : Byte) : Byte × Byte :=
  let r := v <<< 1 ||| BitVec.ofNat 8 (flagNat .c p)
  (r, setNZ r (setFlag .c (v.getLsbD 7) p))

/-- ROR (R137): the old carry enters bit 7. -/
def rorAlu (v p : Byte) : Byte × Byte :=
  let r := v >>> 1 ||| BitVec.ofNat 8 (flagNat .c p) <<< 7
  (r, setNZ r (setFlag .c (v.getLsbD 0) p))

/-- The byte PHP and BRK push (R114, R151). -/
def pushedByInstr (cfg : Config) (p : Byte) : Byte :=
  match cfg.bFlagMode with
  | .absent => p
  | .nmos => p ||| 0x30#8

/-- The byte an interrupt service pushes (R170). -/
def pushedByService (cfg : Config) (p : Byte) : Byte :=
  match cfg.bFlagMode with
  | .absent => p
  | .nmos => p &&& 0xEF#8 ||| 0x20#8

/-- `P` as PLP and RTI load it from the pulled byte (R116, R152). -/
def pulledStatus (cfg : Config) (v : Byte) : Byte :=
  match cfg.bFlagMode with
  | .absent => v
  | .nmos => v &&& 0xCF#8 ||| 0x20#8

end Sys2Proof.Machine
end

