-- ==== Sys2Proof/WellFormed.lean ====
section
/-! DEFINITION. Which instructions a configuration admits (R7 `OPCODE_SET`, R93). Every value of an
operand byte is legal (R74, R75), so this is the only check. -/

namespace Sys2Proof

/-- An opcode byte is in `OPCODE_SET`: a configuration has not removed it (R7, R93; log 2). -/
def Config.admits (c : Config) (op : Byte) : Bool := !c.opcodesRemoved.contains op

/-- An instruction is well formed for a configuration when its opcode is in `OPCODE_SET`. -/
def Instr.wellFormed (c : Config) (i : Instr) : Bool := c.admits i.opcode

end Sys2Proof
end

