-- ==== Sys2Proof/Machine/Ops.lean ====
section
/-! DEFINITION. The named operations over registers and the stack (R57), the end of an instruction
(R98, R99, R164), interrupt entry and return (R151, R152, R170), requests and the gate (R167, R169),
and the instruction fetch (R97). -/

namespace Sys2Proof.Machine

open Sys2Proof

/-- Write `A`. -/
def setA (v : Byte) (s : State) : State := { s with cpu := { s.cpu with a := v } }

/-- Write `S`. -/
def setSp (v : Byte) (s : State) : State := { s with cpu := { s.cpu with sp := v } }

/-- Write `P`. -/
def setP (v : Byte) (s : State) : State := { s with cpu := { s.cpu with p := v } }

/-- Write `PC`. -/
def setPc (v : Word) (s : State) : State := { s with cpu := { s.cpu with pc := v } }

/-- Report the cycles of a step (R97, R99; log 8). -/
def setCycles (n : Nat) (s : State) : State := { s with cycles := n }

/-- Replace the register file. -/
def setCpu (c : Cpu) (s : State) : State := { s with cpu := c }

/-- Replace the pending-interrupt slot (R28). -/
def setPending (k : Option Interrupt) (s : State) : State := { s with pending := k }

/-- The end of an instruction that goes on to `next` (R98): PC moves past its `length` bytes and the
step reports `cycles`. -/
def retire (length cycles : Nat) (s : State) : State :=
  setCycles cycles (setPc (s.cpu.pc + BitVec.ofNat 16 length) s)

/-- The state a fault leaves (R164): the accesses before it stand in `t`, the registers are those of `s`
(the start of the step), no cycles are charged, and the record is kept. -/
def faulted (r : FaultRecord) (s t : State) : State :=
  { t with cpu := s.cpu, cycles := 0, fault := some r }

/-- The fault outcome of a record, with the state left behind (R161, R164). -/
def raise (r : FaultRecord) (left : State) : Fault :=
  match r with
  | .addressOutOfRange a d => .addressOutOfRange a d left
  | .unknownOpcode pc op => .unknownOpcode pc op left

/-- The outcome of a step that began in `s` and made these accesses (R13, R164). -/
def finish (s : State) (r : Res Unit) : Result :=
  match r with
  | .ok _ t => .next t
  | .err f t => .fault (raise f (faulted f s t))

/-- The CPU address of the byte `S` points at (R17). -/
def stackAddr (sp : Byte) : Word := joinBytes 0x01#8 sp

/-- `Push(v)` (R57). -/
def push (v : Byte) (s : State) : Res Unit :=
  (write8 (stackAddr s.cpu.sp) v s).andThen fun _ t => .ok () (setSp (t.cpu.sp - 1#8) t)

/-- `Pull()` (R57). -/
def pull (s : State) : Res Byte :=
  let t := setSp (s.cpu.sp + 1#8) s
  read8 (stackAddr t.cpu.sp) t

/-- `Push16(w)` (R57): high byte first. -/
def push16 (w : Word) (s : State) : Res Unit :=
  (push (highByte w) s).andThen fun _ t => push (lowByte w) t

/-- `Pull16()` (R57): low byte first. -/
def pull16 (s : State) : Res Word :=
  (pull s).andThen fun lo t => (pull t).andThen fun hi u => .ok (joinBytes hi lo) u

/-- Taking an exception (R151, R170): push the return address and a status byte, set I, and load PC from
a vector. BRK and interrupt service share it. -/
def enterHandler (ret : Word) (status : Byte) (vector : Word) (s : State) : Res Unit :=
  (push16 ret s).andThen fun _ t =>
    (push status t).andThen fun _ u =>
      (read16 vector (setP (setFlag .i true u.cpu.p) u)).andThen fun target w =>
        .ok () (setPc target w)

/-- Returning from one (R152): pull P, then PC, which is not adjusted. -/
def returnFromInterrupt (s : State) : Res Unit :=
  (pull s).andThen fun v t =>
    (pull16 (setP (pulledStatus t.cfg v) t)).andThen fun target u => .ok () (setPc target u)

/-- The vector of an interrupt kind (R170, R171). -/
def vectorOf : Interrupt → Word
  | .nmi => 0xFFFA#16
  | .reset => 0xFFFC#16
  | .irq => 0xFFFE#16

/-- The pending slot after a request (R167): an upgrade by priority, never a downgrade. -/
def upgrade (k : Interrupt) : Option Interrupt → Option Interrupt
  | none => some k
  | some .irq => match k with
    | .irq => some .irq
    | .nmi => some .nmi
    | .reset => some .reset
  | some .nmi => match k with
    | .reset => some .reset
    | .irq => some .nmi
    | .nmi => some .nmi
  | some .reset => some .reset

/-- `request_interrupt(k)` (R167). -/
def requestInterrupt (k : Interrupt) (s : State) : State := setPending (upgrade k s.pending) s

/-- `gate(k)` (R169). -/
def gateOpen (k : Interrupt) (s : State) : Bool :=
  match s.cfg.intMode with
  | .gatedAll => !getFlag .i s.cpu.p
  | .nmos => k ≠ .irq || !getFlag .i s.cpu.p

/-- RESET service under `INT_MODE = nmos` (R170): S falls by 3 with no stack write. -/
def enterResetNmos (s : State) : Res Unit :=
  let t := setP (setFlag .i true s.cpu.p) (setSp (s.cpu.sp - 3#8) s)
  (read16 (vectorOf .reset) t).andThen fun target u => .ok () (setPc target u)

/-- The entry of `service(k)` (R170), before the slot is cleared. -/
def enterService (k : Interrupt) (s : State) : Res Unit :=
  if s.cfg.intMode = .nmos ∧ k = .reset then enterResetNmos s
  else enterHandler (s.cpu.pc - s.cfg.returnOffset) (pushedByService s.cfg s.cpu.p) (vectorOf k) s

/-- `service(k)` (R170): the entry, then the slot is cleared. -/
def service (k : Interrupt) (s : State) : Res Unit :=
  (enterService k s).andThen fun _ t => .ok () (setPending none t)

/-- Read `n` bytes through `Read8`, from `a` on, each address taken mod 65536 (R74, R97). -/
def readBytes : Nat → Word → State → Res (List Byte)
  | 0, _, s => .ok [] s
  | n + 1, a, s =>
    (read8 a s).andThen fun b t =>
      (readBytes n (a + 1#16) t).andThen fun bs u => .ok (b :: bs) u

/-- The row of an opcode that a configuration admits (R7 `OPCODE_SET`, R93). -/
def admittedRow (cfg : Config) (op : Byte) : Option Row :=
  if cfg.admits op then rowOf op else none

/-- Fetch and decode (R97): the opcode byte, the row, then the operand bytes. An opcode that has no row
or is not in `OPCODE_SET` faults before any operand byte is read (R93, R163). -/
def fetch (s : State) : Res Instr :=
  (read8 s.cpu.pc s).andThen fun op t =>
    match admittedRow s.cfg op with
    | none => .err (.unknownOpcode s.cpu.pc op) t
    | some row =>
      (readBytes (formatLength row.format - 1) (s.cpu.pc + 1#16) t).andThen fun operands u =>
        match takeOperands row.format operands with
        | .ok (i, _) => .ok i u
        | .error _ => .err (.unknownOpcode s.cpu.pc op) u

end Sys2Proof.Machine
end

