-- ==== Sys2Proof/Machine/Operands.lean ====
section
/-! DEFINITION. The addressing modes (R78 to R90), the operand access classes (R91) and their cycle
costs (R99, R206). -/

namespace Sys2Proof.Machine

open Sys2Proof

/-- The addressing modes that name a memory operand (R75, R81 to R88). -/
inductive Place where
  | zp (n : Byte)
  | zpx (n : Byte)
  | zpy (n : Byte)
  | abs (nn : Word)
  | abx (nn : Word)
  | aby (nn : Word)
  | izx (n : Byte)
  | izy (n : Byte)
  deriving DecidableEq, Repr

/-- The operand of a read-class instruction (R91): an immediate (R80) or a memory operand. -/
inductive Source where
  | imm (n : Byte)
  | mem (p : Place)
  deriving DecidableEq, Repr

/-- An effective address, and whether indexing crossed a page (R85, R86, R88). -/
structure EffAddr where
  addr    : Word
  crossed : Bool
  deriving DecidableEq, Repr

/-- The value of a read-class operand, and whether indexing crossed a page. -/
structure Operand where
  value   : Byte
  crossed : Bool
  deriving DecidableEq, Repr

/-- The length of an instruction with this memory operand (R75). -/
def placeLength : Place → Nat
  | .zp _ | .zpx _ | .zpy _ | .izx _ | .izy _ => 2
  | .abs _ | .abx _ | .aby _ => 3

/-- The length of a read-class instruction (R75). -/
def sourceLength : Source → Nat
  | .imm _ => 2
  | .mem p => placeLength p

/-- `base + index`, with the page-crossing test against the base's high byte (R85, R86, R88). -/
def indexed (base : Word) (index : Byte) : EffAddr :=
  let ea := base + zext16 index
  { addr := ea, crossed := highByte ea != highByte base }

/-- The pointer word of the (zp,X) and (zp),Y modes (R87, R88): both bytes from the zero page. -/
def readPointer (p : Byte) (s : State) : Res Word :=
  (read8 (zext16 p) s).andThen fun lo t =>
    (read8 (zext16 (p + 1#8)) t).andThen fun hi u => .ok (joinBytes hi lo) u

/-- The effective address of a memory operand (R81 to R88). -/
def effAddr (pl : Place) (s : State) : Res EffAddr :=
  match pl with
  | .zp n => .ok { addr := zext16 n, crossed := false } s
  | .zpx n => .ok { addr := zext16 (n + s.cpu.x), crossed := false } s
  | .zpy n => .ok { addr := zext16 (n + s.cpu.y), crossed := false } s
  | .abs nn => .ok { addr := nn, crossed := false } s
  | .abx nn => .ok (indexed nn s.cpu.x) s
  | .aby nn => .ok (indexed nn s.cpu.y) s
  | .izx n => (readPointer (n + s.cpu.x) s).andThen fun w t => .ok { addr := w, crossed := false } t
  | .izy n => (readPointer n s).andThen fun w t => .ok (indexed w t.cpu.y) t

/-- The operand `M` of a read-class instruction (R80, R91): one read for a memory mode. -/
def readSource (src : Source) (s : State) : Res Operand :=
  match src with
  | .imm n => .ok { value := n, crossed := false } s
  | .mem p =>
    (effAddr p s).andThen fun ea t =>
      (read8 ea.addr t).andThen fun v u => .ok { value := v, crossed := ea.crossed } u

/-- The target of JMP (ind) (R89): the pointer's high byte comes from the same page. -/
def readJumpPointer (nn : Word) (s : State) : Res Word :=
  (read8 nn s).andThen fun lo t =>
    (read8 (joinBytes (highByte nn) (lowByte nn + 1#8)) t).andThen fun hi u =>
      .ok (joinBytes hi lo) u

/-- Base cost of a read-class instruction (R206). -/
def readCost : Source → Nat
  | .imm _ => 2
  | .mem (.zp _) => 3
  | .mem (.zpx _) | .mem (.zpy _) => 4
  | .mem (.abs _) | .mem (.abx _) | .mem (.aby _) => 4
  | .mem (.izx _) => 6
  | .mem (.izy _) => 5

/-- Base cost of a store (R206). -/
def storeCost : Place → Nat
  | .zp _ => 3
  | .zpx _ | .zpy _ => 4
  | .abs _ => 4
  | .abx _ | .aby _ => 5
  | .izx _ | .izy _ => 6

/-- Base cost of a read-modify-write instruction on memory (R206). The four modes of R128 are zp, zp,X,
abs and abs,X; no row uses another (log 24). -/
def rmwCost : Place → Nat
  | .zp _ => 5
  | .zpx _ | .zpy _ => 6
  | .abs _ => 6
  | .abx _ | .aby _ => 7
  | .izx _ | .izy _ => 7

/-- The page-crossing term of a read-class instruction (R99). Only abs,X, abs,Y and (zp),Y can cross. -/
def crossPenalty (cfg : Config) (crossed : Bool) : Nat :=
  match cfg.pagePenalty with
  | .off => 0
  | .on => if crossed then 1 else 0

/-- The OAM DMA term of an instruction that writes `ea` (R99, R194; log 22). -/
def dmaPenalty (cfg : Config) (ea : Word) : Nat := if ea = 0x4014#16 then cfg.dmaCycles else 0

/-- A read-class instruction (R91): read `M`, compute on the registers, go on. -/
def readClass (src : Source) (op : Config → Byte → Cpu → Cpu) (s : State) : Result :=
  finish s <| (readSource src s).andThen fun m t =>
    .ok () (retire (sourceLength src) (readCost src + crossPenalty t.cfg m.crossed)
      (setCpu (op t.cfg m.value t.cpu) t))

/-- A write-class instruction (R91): one write of a register's value, no read of `ea`. -/
def writeClass (p : Place) (value : Cpu → Byte) (s : State) : Result :=
  finish s <| (effAddr p s).andThen fun ea t =>
    (write8 ea.addr (value t.cpu) t).andThen fun _ u =>
      .ok () (retire (placeLength p) (storeCost p + dmaPenalty u.cfg ea.addr) u)

/-- A read-modify-write instruction on memory (R91, R60): one read, one write of the result; the flags
come from the result whether or not the write had an effect (R128). -/
def modifyClass (p : Place) (alu : Byte → Byte → Byte × Byte) (s : State) : Result :=
  finish s <| (effAddr p s).andThen fun ea t =>
    (read8 ea.addr t).andThen fun v u =>
      (write8 ea.addr (alu v u.cpu.p).1 u).andThen fun _ w =>
        .ok () (retire (placeLength p) (rmwCost p + dmaPenalty w.cfg ea.addr)
          (setP (alu v u.cpu.p).2 w))

/-- A one-byte, two-cycle instruction that works on the registers alone (R78, R79, R206). -/
def registerOnly (op : Cpu → Cpu) (s : State) : Result :=
  .next (retire 1 2 (setCpu (op s.cpu) s))

end Sys2Proof.Machine
end

