-- ==== Sys2Proof/Machine/ArithLogic.lean ====
section
/-! DEFINITION. Arithmetic, logical, compare and bit-test instructions (42_arith_logic.md, R117 to R127). -/

namespace Sys2Proof.Machine

open Sys2Proof

/-- ADC (R117, R118): `A <- A + M + C`, binary or decimal. -/
def adcFrom (src : Source) (s : State) : Result :=
  readClass src (fun cfg m c => { c with a := (adcAlu cfg c.a m c.p).1, p := (adcAlu cfg c.a m c.p).2 }) s

/-- `ADC ($nn,X)`, opcode 0x61 (R117). -/
def execAdcIzx (n : Byte) (s : State) : Result := adcFrom (.mem (.izx n)) s

/-- `ADC $nn`, opcode 0x65 (R117). -/
def execAdcZp (n : Byte) (s : State) : Result := adcFrom (.mem (.zp n)) s

/-- `ADC #$nn`, opcode 0x69 (R117). -/
def execAdcImm (n : Byte) (s : State) : Result := adcFrom (.imm n) s

/-- `ADC $nnnn`, opcode 0x6D (R117). -/
def execAdcAbs (nn : Word) (s : State) : Result := adcFrom (.mem (.abs nn)) s

/-- `ADC ($nn),Y`, opcode 0x71 (R117). -/
def execAdcIzy (n : Byte) (s : State) : Result := adcFrom (.mem (.izy n)) s

/-- `ADC $nn,X`, opcode 0x75 (R117). -/
def execAdcZpx (n : Byte) (s : State) : Result := adcFrom (.mem (.zpx n)) s

/-- `ADC $nnnn,Y`, opcode 0x79 (R117). -/
def execAdcAby (nn : Word) (s : State) : Result := adcFrom (.mem (.aby nn)) s

/-- `ADC $nnnn,X`, opcode 0x7D (R117). -/
def execAdcAbx (nn : Word) (s : State) : Result := adcFrom (.mem (.abx nn)) s

/-- SBC (R119, R120): `A <- A - M - (1 - C)`, binary or decimal. -/
def sbcFrom (src : Source) (s : State) : Result :=
  readClass src (fun cfg m c => { c with a := (sbcAlu cfg c.a m c.p).1, p := (sbcAlu cfg c.a m c.p).2 }) s

/-- `SBC ($nn,X)`, opcode 0xE1 (R119). -/
def execSbcIzx (n : Byte) (s : State) : Result := sbcFrom (.mem (.izx n)) s

/-- `SBC $nn`, opcode 0xE5 (R119). -/
def execSbcZp (n : Byte) (s : State) : Result := sbcFrom (.mem (.zp n)) s

/-- `SBC #$nn`, opcode 0xE9 (R119). -/
def execSbcImm (n : Byte) (s : State) : Result := sbcFrom (.imm n) s

/-- `SBC $nnnn`, opcode 0xED (R119). -/
def execSbcAbs (nn : Word) (s : State) : Result := sbcFrom (.mem (.abs nn)) s

/-- `SBC ($nn),Y`, opcode 0xF1 (R119). -/
def execSbcIzy (n : Byte) (s : State) : Result := sbcFrom (.mem (.izy n)) s

/-- `SBC $nn,X`, opcode 0xF5 (R119). -/
def execSbcZpx (n : Byte) (s : State) : Result := sbcFrom (.mem (.zpx n)) s

/-- `SBC $nnnn,Y`, opcode 0xF9 (R119). -/
def execSbcAby (nn : Word) (s : State) : Result := sbcFrom (.mem (.aby nn)) s

/-- `SBC $nnnn,X`, opcode 0xFD (R119). -/
def execSbcAbx (nn : Word) (s : State) : Result := sbcFrom (.mem (.abx nn)) s

/-- AND (R121): `A <- A & M; setNZ(A)`. -/
def andFrom (src : Source) (s : State) : Result :=
  readClass src (fun _ m c => { c with a := c.a &&& m, p := setNZ (c.a &&& m) c.p }) s

/-- `AND ($nn,X)`, opcode 0x21 (R121). -/
def execAndIzx (n : Byte) (s : State) : Result := andFrom (.mem (.izx n)) s

/-- `AND $nn`, opcode 0x25 (R121). -/
def execAndZp (n : Byte) (s : State) : Result := andFrom (.mem (.zp n)) s

/-- `AND #$nn`, opcode 0x29 (R121). -/
def execAndImm (n : Byte) (s : State) : Result := andFrom (.imm n) s

/-- `AND $nnnn`, opcode 0x2D (R121). -/
def execAndAbs (nn : Word) (s : State) : Result := andFrom (.mem (.abs nn)) s

/-- `AND ($nn),Y`, opcode 0x31 (R121). -/
def execAndIzy (n : Byte) (s : State) : Result := andFrom (.mem (.izy n)) s

/-- `AND $nn,X`, opcode 0x35 (R121). -/
def execAndZpx (n : Byte) (s : State) : Result := andFrom (.mem (.zpx n)) s

/-- `AND $nnnn,Y`, opcode 0x39 (R121). -/
def execAndAby (nn : Word) (s : State) : Result := andFrom (.mem (.aby nn)) s

/-- `AND $nnnn,X`, opcode 0x3D (R121). -/
def execAndAbx (nn : Word) (s : State) : Result := andFrom (.mem (.abx nn)) s

/-- ORA (R122): `A <- A | M; setNZ(A)`. -/
def oraFrom (src : Source) (s : State) : Result :=
  readClass src (fun _ m c => { c with a := c.a ||| m, p := setNZ (c.a ||| m) c.p }) s

/-- `ORA ($nn,X)`, opcode 0x01 (R122). -/
def execOraIzx (n : Byte) (s : State) : Result := oraFrom (.mem (.izx n)) s

/-- `ORA $nn`, opcode 0x05 (R122). -/
def execOraZp (n : Byte) (s : State) : Result := oraFrom (.mem (.zp n)) s

/-- `ORA #$nn`, opcode 0x09 (R122). -/
def execOraImm (n : Byte) (s : State) : Result := oraFrom (.imm n) s

/-- `ORA $nnnn`, opcode 0x0D (R122). -/
def execOraAbs (nn : Word) (s : State) : Result := oraFrom (.mem (.abs nn)) s

/-- `ORA ($nn),Y`, opcode 0x11 (R122). -/
def execOraIzy (n : Byte) (s : State) : Result := oraFrom (.mem (.izy n)) s

/-- `ORA $nn,X`, opcode 0x15 (R122). -/
def execOraZpx (n : Byte) (s : State) : Result := oraFrom (.mem (.zpx n)) s

/-- `ORA $nnnn,Y`, opcode 0x19 (R122). -/
def execOraAby (nn : Word) (s : State) : Result := oraFrom (.mem (.aby nn)) s

/-- `ORA $nnnn,X`, opcode 0x1D (R122). -/
def execOraAbx (nn : Word) (s : State) : Result := oraFrom (.mem (.abx nn)) s

/-- EOR (R123): `A <- A ^ M; setNZ(A)`. -/
def eorFrom (src : Source) (s : State) : Result :=
  readClass src (fun _ m c => { c with a := c.a ^^^ m, p := setNZ (c.a ^^^ m) c.p }) s

/-- `EOR ($nn,X)`, opcode 0x41 (R123). -/
def execEorIzx (n : Byte) (s : State) : Result := eorFrom (.mem (.izx n)) s

/-- `EOR $nn`, opcode 0x45 (R123). -/
def execEorZp (n : Byte) (s : State) : Result := eorFrom (.mem (.zp n)) s

/-- `EOR #$nn`, opcode 0x49 (R123). -/
def execEorImm (n : Byte) (s : State) : Result := eorFrom (.imm n) s

/-- `EOR $nnnn`, opcode 0x4D (R123). -/
def execEorAbs (nn : Word) (s : State) : Result := eorFrom (.mem (.abs nn)) s

/-- `EOR ($nn),Y`, opcode 0x51 (R123). -/
def execEorIzy (n : Byte) (s : State) : Result := eorFrom (.mem (.izy n)) s

/-- `EOR $nn,X`, opcode 0x55 (R123). -/
def execEorZpx (n : Byte) (s : State) : Result := eorFrom (.mem (.zpx n)) s

/-- `EOR $nnnn,Y`, opcode 0x59 (R123). -/
def execEorAby (nn : Word) (s : State) : Result := eorFrom (.mem (.aby nn)) s

/-- `EOR $nnnn,X`, opcode 0x5D (R123). -/
def execEorAbx (nn : Word) (s : State) : Result := eorFrom (.mem (.abx nn)) s

/-- CMP (R124): Z and N of `A - M`, C per `CMP_CARRY_MODE`; A is unchanged. -/
def cmpFrom (src : Source) (s : State) : Result :=
  readClass src (fun cfg m c => { c with p := cmpFlags cfg c.a m c.p }) s

/-- `CMP ($nn,X)`, opcode 0xC1 (R124). -/
def execCmpIzx (n : Byte) (s : State) : Result := cmpFrom (.mem (.izx n)) s

/-- `CMP $nn`, opcode 0xC5 (R124). -/
def execCmpZp (n : Byte) (s : State) : Result := cmpFrom (.mem (.zp n)) s

/-- `CMP #$nn`, opcode 0xC9 (R124). -/
def execCmpImm (n : Byte) (s : State) : Result := cmpFrom (.imm n) s

/-- `CMP $nnnn`, opcode 0xCD (R124). -/
def execCmpAbs (nn : Word) (s : State) : Result := cmpFrom (.mem (.abs nn)) s

/-- `CMP ($nn),Y`, opcode 0xD1 (R124). -/
def execCmpIzy (n : Byte) (s : State) : Result := cmpFrom (.mem (.izy n)) s

/-- `CMP $nn,X`, opcode 0xD5 (R124). -/
def execCmpZpx (n : Byte) (s : State) : Result := cmpFrom (.mem (.zpx n)) s

/-- `CMP $nnnn,Y`, opcode 0xD9 (R124). -/
def execCmpAby (nn : Word) (s : State) : Result := cmpFrom (.mem (.aby nn)) s

/-- `CMP $nnnn,X`, opcode 0xDD (R124). -/
def execCmpAbx (nn : Word) (s : State) : Result := cmpFrom (.mem (.abx nn)) s

/-- CPX (R125): Z and N of `X - M`, C written both ways. -/
def cpxFrom (src : Source) (s : State) : Result :=
  readClass src (fun _ m c => { c with p := compareFlags c.x m c.p }) s

/-- `CPX #$nn`, opcode 0xE0 (R125). -/
def execCpxImm (n : Byte) (s : State) : Result := cpxFrom (.imm n) s

/-- `CPX $nn`, opcode 0xE4 (R125). -/
def execCpxZp (n : Byte) (s : State) : Result := cpxFrom (.mem (.zp n)) s

/-- `CPX $nnnn`, opcode 0xEC (R125). -/
def execCpxAbs (nn : Word) (s : State) : Result := cpxFrom (.mem (.abs nn)) s

/-- CPY (R126): Z and N of `Y - M`, C written both ways. -/
def cpyFrom (src : Source) (s : State) : Result :=
  readClass src (fun _ m c => { c with p := compareFlags c.y m c.p }) s

/-- `CPY #$nn`, opcode 0xC0 (R126). -/
def execCpyImm (n : Byte) (s : State) : Result := cpyFrom (.imm n) s

/-- `CPY $nn`, opcode 0xC4 (R126). -/
def execCpyZp (n : Byte) (s : State) : Result := cpyFrom (.mem (.zp n)) s

/-- `CPY $nnnn`, opcode 0xCC (R126). -/
def execCpyAbs (nn : Word) (s : State) : Result := cpyFrom (.mem (.abs nn)) s

/-- BIT (R127): Z of `A & M`, N and V from the operand. -/
def bitFrom (src : Source) (s : State) : Result :=
  readClass src (fun cfg m c => { c with p := bitFlags cfg c.a m c.p }) s

/-- `BIT $nn`, opcode 0x24 (R127). -/
def execBitZp (n : Byte) (s : State) : Result := bitFrom (.mem (.zp n)) s

/-- `BIT $nnnn`, opcode 0x2C (R127). -/
def execBitAbs (nn : Word) (s : State) : Result := bitFrom (.mem (.abs nn)) s

end Sys2Proof.Machine
end

