-- ==== Sys2Proof/Machine/Control.lean ====
section
/-! DEFINITION. Branch, jump, subroutine, interrupt-return and no-op instructions (44_control.md, R138 to R153). -/

namespace Sys2Proof.Machine

open Sys2Proof

/-- The address a taken branch goes to (R90, R138): `next + sext16(b1)`. -/
def branchTarget (next : Word) (n : Byte) : Word := next + sext16 n

/-- The cycles of a branch (R99, R138): 2, one more if taken, one more if taken to another page. -/
def branchCost (taken : Bool) (next target : Word) : Nat :=
  if taken then (if highByte target ≠ highByte next then 4 else 3) else 2

/-- `branch(cond)` (R138). -/
def branch (taken : Bool) (n : Byte) (s : State) : Result :=
  let next := s.cpu.pc + 2#16
  let target := branchTarget next n
  .next (setCycles (branchCost taken next target) (setPc (if taken then target else next) s))

/-- `BCC label`, opcode 0x90 (R139): `branch(P.C = 0)`. -/
def execBcc (n : Byte) (s : State) : Result := branch (!getFlag .c s.cpu.p) n s

/-- `BCS label`, opcode 0xB0 (R140): `branch(P.C = 1)`. -/
def execBcs (n : Byte) (s : State) : Result := branch (getFlag .c s.cpu.p) n s

/-- `BEQ label`, opcode 0xF0 (R141): `branch(P.Z = 1)`. -/
def execBeq (n : Byte) (s : State) : Result := branch (getFlag .z s.cpu.p) n s

/-- `BMI label`, opcode 0x30 (R142): `branch(P.N = 1)`. -/
def execBmi (n : Byte) (s : State) : Result := branch (getFlag .n s.cpu.p) n s

/-- `BNE label`, opcode 0xD0 (R143): `branch(P.Z = 0)`. -/
def execBne (n : Byte) (s : State) : Result := branch (!getFlag .z s.cpu.p) n s

/-- `BPL label`, opcode 0x10 (R144): `branch(P.N = 0)`. -/
def execBpl (n : Byte) (s : State) : Result := branch (!getFlag .n s.cpu.p) n s

/-- `BVC label`, opcode 0x50 (R145): `branch(P.V = 0)`. -/
def execBvc (n : Byte) (s : State) : Result := branch (!getFlag .v s.cpu.p) n s

/-- `BVS label`, opcode 0x70 (R146): `branch(P.V = 1)`. -/
def execBvs (n : Byte) (s : State) : Result := branch (getFlag .v s.cpu.p) n s

/-- `JMP $nnnn`, opcode 0x4C (R148): `PC <- {b2, b1}`. -/
def execJmpAbs (nn : Word) (s : State) : Result := .next (setCycles 3 (setPc nn s))

/-- `JMP ($nnnn)`, opcode 0x6C (R148, R89). -/
def execJmpInd (nn : Word) (s : State) : Result :=
  finish s <| (readJumpPointer nn s).andThen fun target t => .ok () (setCycles 5 (setPc target t))

/-- `JSR $nnnn`, opcode 0x20 (R149): push the address of the last byte of the JSR, go to the target. -/
def execJsr (nn : Word) (s : State) : Result :=
  finish s <| (push16 (s.cpu.pc + 2#16) s).andThen fun _ t => .ok () (setCycles 6 (setPc nn t))

/-- `RTS`, opcode 0x60 (R150): pull the address and add 1. -/
def execRts (s : State) : Result :=
  finish s <| (pull16 s).andThen fun ret t => .ok () (setCycles 6 (setPc (ret + 1#16) t))

/-- `BRK`, opcode 0x00 (R151): the exception through 0xFFFE, with `pc0 + 2` as the return address. -/
def execBrk (s : State) : Result :=
  finish s <|
    (enterHandler (s.cpu.pc + 2#16) (pushedByInstr s.cfg s.cpu.p) 0xFFFE#16 s).andThen fun _ t =>
      .ok () (setCycles 7 t)

/-- `RTI`, opcode 0x40 (R152). -/
def execRti (s : State) : Result :=
  finish s <| (returnFromInterrupt s).andThen fun _ t => .ok () (setCycles 6 t)

/-- `NOP`, opcode 0xEA (R153): `PC <- next`. -/
def execNop (s : State) : Result := registerOnly (fun c => c) s

end Sys2Proof.Machine
end

