-- ==== Sys2Proof/Machine/FlagInstr.lean ====
section
/-! DEFINITION. Flag instructions (45_flags.md, R154 to R160). -/

namespace Sys2Proof.Machine

open Sys2Proof

/-- `CLC`, opcode 0x18 (R154): `P.C <- 0`. -/
def execClc (s : State) : Result :=
  registerOnly (fun c => { c with p := setFlag .c false c.p }) s

/-- `SEC`, opcode 0x38 (R155): `P.C <- 1`. -/
def execSec (s : State) : Result :=
  registerOnly (fun c => { c with p := setFlag .c true c.p }) s

/-- `CLI`, opcode 0x58 (R156): `P.I <- 0`. -/
def execCli (s : State) : Result :=
  registerOnly (fun c => { c with p := setFlag .i false c.p }) s

/-- `SEI`, opcode 0x78 (R157): `P.I <- 1`. -/
def execSei (s : State) : Result :=
  registerOnly (fun c => { c with p := setFlag .i true c.p }) s

/-- `CLD`, opcode 0xD8 (R158): `P.D <- 0`. -/
def execCld (s : State) : Result :=
  registerOnly (fun c => { c with p := setFlag .d false c.p }) s

/-- `SED`, opcode 0xF8 (R159): `P.D <- 1`. -/
def execSed (s : State) : Result :=
  registerOnly (fun c => { c with p := setFlag .d true c.p }) s

/-- `CLV`, opcode 0xB8 (R160): `P.V <- 0`. -/
def execClv (s : State) : Result :=
  registerOnly (fun c => { c with p := setFlag .v false c.p }) s

end Sys2Proof.Machine
end

