-- ==== Sys2Proof/Machine/IncDecShift.lean ====
section
/-! DEFINITION. Increment, decrement, shift and rotate instructions (43_incdec_shift.md, R128 to R137). -/

namespace Sys2Proof.Machine

open Sys2Proof

/-- INC on memory (R128). -/
def incAt (p : Place) (s : State) : Result := modifyClass p incAlu s

/-- `INC $nn`, opcode 0xE6 (R128). -/
def execIncZp (n : Byte) (s : State) : Result := incAt (.zp n) s

/-- `INC $nnnn`, opcode 0xEE (R128). -/
def execIncAbs (nn : Word) (s : State) : Result := incAt (.abs nn) s

/-- `INC $nn,X`, opcode 0xF6 (R128). -/
def execIncZpx (n : Byte) (s : State) : Result := incAt (.zpx n) s

/-- `INC $nnnn,X`, opcode 0xFE (R128). -/
def execIncAbx (nn : Word) (s : State) : Result := incAt (.abx nn) s

/-- DEC on memory (R129). -/
def decAt (p : Place) (s : State) : Result := modifyClass p decAlu s

/-- `DEC $nn`, opcode 0xC6 (R129). -/
def execDecZp (n : Byte) (s : State) : Result := decAt (.zp n) s

/-- `DEC $nnnn`, opcode 0xCE (R129). -/
def execDecAbs (nn : Word) (s : State) : Result := decAt (.abs nn) s

/-- `DEC $nn,X`, opcode 0xD6 (R129). -/
def execDecZpx (n : Byte) (s : State) : Result := decAt (.zpx n) s

/-- `DEC $nnnn,X`, opcode 0xDE (R129). -/
def execDecAbx (nn : Word) (s : State) : Result := decAt (.abx nn) s

/-- `INX`, opcode 0xE8 (R130). -/
def execInx (s : State) : Result :=
  registerOnly (fun c => { c with x := (incAlu c.x c.p).1, p := (incAlu c.x c.p).2 }) s

/-- `INY`, opcode 0xC8 (R131). -/
def execIny (s : State) : Result :=
  registerOnly (fun c => { c with y := (incAlu c.y c.p).1, p := (incAlu c.y c.p).2 }) s

/-- `DEX`, opcode 0xCA (R132). -/
def execDex (s : State) : Result :=
  registerOnly (fun c => { c with x := (decAlu c.x c.p).1, p := (decAlu c.x c.p).2 }) s

/-- `DEY`, opcode 0x88 (R133). -/
def execDey (s : State) : Result :=
  registerOnly (fun c => { c with y := (decAlu c.y c.p).1, p := (decAlu c.y c.p).2 }) s

/-- ASL on memory (R134). -/
def aslAt (p : Place) (s : State) : Result := modifyClass p aslAlu s

/-- ASL on the accumulator (R134, R79). -/
def aslAcc (s : State) : Result :=
  registerOnly (fun c => { c with a := (aslAlu c.a c.p).1, p := (aslAlu c.a c.p).2 }) s

/-- `ASL $nn`, opcode 0x06 (R134). -/
def execAslZp (n : Byte) (s : State) : Result := aslAt (.zp n) s

/-- `ASL A`, opcode 0x0A (R134). -/
def execAslAcc (s : State) : Result := aslAcc s

/-- `ASL $nnnn`, opcode 0x0E (R134). -/
def execAslAbs (nn : Word) (s : State) : Result := aslAt (.abs nn) s

/-- `ASL $nn,X`, opcode 0x16 (R134). -/
def execAslZpx (n : Byte) (s : State) : Result := aslAt (.zpx n) s

/-- `ASL $nnnn,X`, opcode 0x1E (R134). -/
def execAslAbx (nn : Word) (s : State) : Result := aslAt (.abx nn) s

/-- LSR on memory (R135). -/
def lsrAt (p : Place) (s : State) : Result := modifyClass p lsrAlu s

/-- LSR on the accumulator (R135, R79). -/
def lsrAcc (s : State) : Result :=
  registerOnly (fun c => { c with a := (lsrAlu c.a c.p).1, p := (lsrAlu c.a c.p).2 }) s

/-- `LSR $nn`, opcode 0x46 (R135). -/
def execLsrZp (n : Byte) (s : State) : Result := lsrAt (.zp n) s

/-- `LSR A`, opcode 0x4A (R135). -/
def execLsrAcc (s : State) : Result := lsrAcc s

/-- `LSR $nnnn`, opcode 0x4E (R135). -/
def execLsrAbs (nn : Word) (s : State) : Result := lsrAt (.abs nn) s

/-- `LSR $nn,X`, opcode 0x56 (R135). -/
def execLsrZpx (n : Byte) (s : State) : Result := lsrAt (.zpx n) s

/-- `LSR $nnnn,X`, opcode 0x5E (R135). -/
def execLsrAbx (nn : Word) (s : State) : Result := lsrAt (.abx nn) s

/-- ROL on memory (R136). -/
def rolAt (p : Place) (s : State) : Result := modifyClass p rolAlu s

/-- ROL on the accumulator (R136, R79). -/
def rolAcc (s : State) : Result :=
  registerOnly (fun c => { c with a := (rolAlu c.a c.p).1, p := (rolAlu c.a c.p).2 }) s

/-- `ROL $nn`, opcode 0x26 (R136). -/
def execRolZp (n : Byte) (s : State) : Result := rolAt (.zp n) s

/-- `ROL A`, opcode 0x2A (R136). -/
def execRolAcc (s : State) : Result := rolAcc s

/-- `ROL $nnnn`, opcode 0x2E (R136). -/
def execRolAbs (nn : Word) (s : State) : Result := rolAt (.abs nn) s

/-- `ROL $nn,X`, opcode 0x36 (R136). -/
def execRolZpx (n : Byte) (s : State) : Result := rolAt (.zpx n) s

/-- `ROL $nnnn,X`, opcode 0x3E (R136). -/
def execRolAbx (nn : Word) (s : State) : Result := rolAt (.abx nn) s

/-- ROR on memory (R137). -/
def rorAt (p : Place) (s : State) : Result := modifyClass p rorAlu s

/-- ROR on the accumulator (R137, R79). -/
def rorAcc (s : State) : Result :=
  registerOnly (fun c => { c with a := (rorAlu c.a c.p).1, p := (rorAlu c.a c.p).2 }) s

/-- `ROR $nn`, opcode 0x66 (R137). -/
def execRorZp (n : Byte) (s : State) : Result := rorAt (.zp n) s

/-- `ROR A`, opcode 0x6A (R137). -/
def execRorAcc (s : State) : Result := rorAcc s

/-- `ROR $nnnn`, opcode 0x6E (R137). -/
def execRorAbs (nn : Word) (s : State) : Result := rorAt (.abs nn) s

/-- `ROR $nn,X`, opcode 0x76 (R137). -/
def execRorZpx (n : Byte) (s : State) : Result := rorAt (.zpx n) s

/-- `ROR $nnnn,X`, opcode 0x7E (R137). -/
def execRorAbx (nn : Word) (s : State) : Result := rorAt (.abx nn) s

end Sys2Proof.Machine
end

