-- ==== Sys2Proof/Machine/LoadStore.lean ====
section
/-! DEFINITION. Load and store instructions (40_load_store.md, R100 to R106). -/

namespace Sys2Proof.Machine

open Sys2Proof

/-- LDA (R101): `A <- M; setNZ(A)`. -/
def ldaFrom (src : Source) (s : State) : Result :=
  readClass src (fun _ m c => { c with a := m, p := setNZ m c.p }) s

/-- `LDA ($nn,X)`, opcode 0xA1 (R101). -/
def execLdaIzx (n : Byte) (s : State) : Result := ldaFrom (.mem (.izx n)) s

/-- `LDA $nn`, opcode 0xA5 (R101). -/
def execLdaZp (n : Byte) (s : State) : Result := ldaFrom (.mem (.zp n)) s

/-- `LDA #$nn`, opcode 0xA9 (R101). -/
def execLdaImm (n : Byte) (s : State) : Result := ldaFrom (.imm n) s

/-- `LDA $nnnn`, opcode 0xAD (R101). -/
def execLdaAbs (nn : Word) (s : State) : Result := ldaFrom (.mem (.abs nn)) s

/-- `LDA ($nn),Y`, opcode 0xB1 (R101). -/
def execLdaIzy (n : Byte) (s : State) : Result := ldaFrom (.mem (.izy n)) s

/-- `LDA $nn,X`, opcode 0xB5 (R101). -/
def execLdaZpx (n : Byte) (s : State) : Result := ldaFrom (.mem (.zpx n)) s

/-- `LDA $nnnn,Y`, opcode 0xB9 (R101). -/
def execLdaAby (nn : Word) (s : State) : Result := ldaFrom (.mem (.aby nn)) s

/-- `LDA $nnnn,X`, opcode 0xBD (R101). -/
def execLdaAbx (nn : Word) (s : State) : Result := ldaFrom (.mem (.abx nn)) s

/-- LDX (R102): `X <- M; setNZ(X)`. -/
def ldxFrom (src : Source) (s : State) : Result :=
  readClass src (fun _ m c => { c with x := m, p := setNZ m c.p }) s

/-- `LDX #$nn`, opcode 0xA2 (R102). -/
def execLdxImm (n : Byte) (s : State) : Result := ldxFrom (.imm n) s

/-- `LDX $nn`, opcode 0xA6 (R102). -/
def execLdxZp (n : Byte) (s : State) : Result := ldxFrom (.mem (.zp n)) s

/-- `LDX $nnnn`, opcode 0xAE (R102). -/
def execLdxAbs (nn : Word) (s : State) : Result := ldxFrom (.mem (.abs nn)) s

/-- `LDX $nn,Y`, opcode 0xB6 (R102). -/
def execLdxZpy (n : Byte) (s : State) : Result := ldxFrom (.mem (.zpy n)) s

/-- `LDX $nnnn,Y`, opcode 0xBE (R102). -/
def execLdxAby (nn : Word) (s : State) : Result := ldxFrom (.mem (.aby nn)) s

/-- LDY (R103): `Y <- M; setNZ(Y)`. -/
def ldyFrom (src : Source) (s : State) : Result :=
  readClass src (fun _ m c => { c with y := m, p := setNZ m c.p }) s

/-- `LDY #$nn`, opcode 0xA0 (R103). -/
def execLdyImm (n : Byte) (s : State) : Result := ldyFrom (.imm n) s

/-- `LDY $nn`, opcode 0xA4 (R103). -/
def execLdyZp (n : Byte) (s : State) : Result := ldyFrom (.mem (.zp n)) s

/-- `LDY $nnnn`, opcode 0xAC (R103). -/
def execLdyAbs (nn : Word) (s : State) : Result := ldyFrom (.mem (.abs nn)) s

/-- `LDY $nn,X`, opcode 0xB4 (R103). -/
def execLdyZpx (n : Byte) (s : State) : Result := ldyFrom (.mem (.zpx n)) s

/-- `LDY $nnnn,X`, opcode 0xBC (R103). -/
def execLdyAbx (nn : Word) (s : State) : Result := ldyFrom (.mem (.abx nn)) s

/-- STA (R104): `Write8(ea, A)`. -/
def staTo (p : Place) (s : State) : Result := writeClass p (fun c => c.a) s

/-- `STA ($nn,X)`, opcode 0x81 (R104). -/
def execStaIzx (n : Byte) (s : State) : Result := staTo (.izx n) s

/-- `STA $nn`, opcode 0x85 (R104). -/
def execStaZp (n : Byte) (s : State) : Result := staTo (.zp n) s

/-- `STA $nnnn`, opcode 0x8D (R104). -/
def execStaAbs (nn : Word) (s : State) : Result := staTo (.abs nn) s

/-- `STA ($nn),Y`, opcode 0x91 (R104). -/
def execStaIzy (n : Byte) (s : State) : Result := staTo (.izy n) s

/-- `STA $nn,X`, opcode 0x95 (R104). -/
def execStaZpx (n : Byte) (s : State) : Result := staTo (.zpx n) s

/-- `STA $nnnn,Y`, opcode 0x99 (R104). -/
def execStaAby (nn : Word) (s : State) : Result := staTo (.aby nn) s

/-- `STA $nnnn,X`, opcode 0x9D (R104). -/
def execStaAbx (nn : Word) (s : State) : Result := staTo (.abx nn) s

/-- STX (R105): `Write8(ea, X)`. -/
def stxTo (p : Place) (s : State) : Result := writeClass p (fun c => c.x) s

/-- `STX $nn`, opcode 0x86 (R105). -/
def execStxZp (n : Byte) (s : State) : Result := stxTo (.zp n) s

/-- `STX $nnnn`, opcode 0x8E (R105). -/
def execStxAbs (nn : Word) (s : State) : Result := stxTo (.abs nn) s

/-- `STX $nn,Y`, opcode 0x96 (R105). -/
def execStxZpy (n : Byte) (s : State) : Result := stxTo (.zpy n) s

/-- STY (R106): `Write8(ea, Y)`. -/
def styTo (p : Place) (s : State) : Result := writeClass p (fun c => c.y) s

/-- `STY $nn`, opcode 0x84 (R106). -/
def execStyZp (n : Byte) (s : State) : Result := styTo (.zp n) s

/-- `STY $nnnn`, opcode 0x8C (R106). -/
def execStyAbs (nn : Word) (s : State) : Result := styTo (.abs nn) s

/-- `STY $nn,X`, opcode 0x94 (R106). -/
def execStyZpx (n : Byte) (s : State) : Result := styTo (.zpx n) s

end Sys2Proof.Machine
end

