-- ==== Sys2Proof/Machine/TransferStack.lean ====
section
/-! DEFINITION. Register transfer and stack instructions (41_transfer_stack.md, R107 to R116). -/

namespace Sys2Proof.Machine

open Sys2Proof

/-- `TAX`, opcode 0xAA (R107): `X <- A; setNZ(X)`. -/
def execTax (s : State) : Result :=
  registerOnly (fun c => { c with x := c.a, p := setNZ c.a c.p }) s

/-- `TAY`, opcode 0xA8 (R108): `Y <- A; setNZ(Y)`. -/
def execTay (s : State) : Result :=
  registerOnly (fun c => { c with y := c.a, p := setNZ c.a c.p }) s

/-- `TXA`, opcode 0x8A (R109): `A <- X; setNZ(A)`. -/
def execTxa (s : State) : Result :=
  registerOnly (fun c => { c with a := c.x, p := setNZ c.x c.p }) s

/-- `TYA`, opcode 0x98 (R110): `A <- Y; setNZ(A)`. -/
def execTya (s : State) : Result :=
  registerOnly (fun c => { c with a := c.y, p := setNZ c.y c.p }) s

/-- `TSX`, opcode 0xBA (R111): `X <- S; setNZ(X)`. -/
def execTsx (s : State) : Result :=
  registerOnly (fun c => { c with x := c.sp, p := setNZ c.sp c.p }) s

/-- `TXS`, opcode 0x9A (R112): `S <- X`, no flag. -/
def execTxs (s : State) : Result :=
  registerOnly (fun c => { c with sp := c.x }) s

/-- `PHA`, opcode 0x48 (R113): push A, 3 cycles. -/
def execPha (s : State) : Result :=
  finish s <| (push s.cpu.a s).andThen fun _ t => .ok () (retire 1 3 t)

/-- `PHP`, opcode 0x08 (R114): push P, with bits 4 and 5 set under `B_FLAG_MODE = nmos`. -/
def execPhp (s : State) : Result :=
  finish s <| (push (pushedByInstr s.cfg s.cpu.p) s).andThen fun _ t => .ok () (retire 1 3 t)

/-- `PLA`, opcode 0x68 (R115): pull A, `setNZ(A)`, 4 cycles. -/
def execPla (s : State) : Result :=
  finish s <| (pull s).andThen fun v t =>
    .ok () (retire 1 4 (setP (setNZ v t.cpu.p) (setA v t)))

/-- `PLP`, opcode 0x28 (R116): pull P, 4 cycles. -/
def execPlp (s : State) : Result :=
  finish s <| (pull s).andThen fun v t =>
    .ok () (retire 1 4 (setP (pulledStatus t.cfg v) t))

end Sys2Proof.Machine
end

