-- ==== Sys2Proof/Machine/Dispatch.lean ====
section
/-! DEFINITION. The dispatch of R97: one arm per constructor of `Instr`, one meaning per arm. -/

namespace Sys2Proof.Machine

open Sys2Proof

def exec (i : Instr) (s : State) : Host.Outcome State Fault Refusal :=
  match i with
  | .ldaIzx n => Sys2Proof.Machine.execLdaIzx n s
  | .ldaZp n => Sys2Proof.Machine.execLdaZp n s
  | .ldaImm n => Sys2Proof.Machine.execLdaImm n s
  | .ldaAbs nn => Sys2Proof.Machine.execLdaAbs nn s
  | .ldaIzy n => Sys2Proof.Machine.execLdaIzy n s
  | .ldaZpx n => Sys2Proof.Machine.execLdaZpx n s
  | .ldaAby nn => Sys2Proof.Machine.execLdaAby nn s
  | .ldaAbx nn => Sys2Proof.Machine.execLdaAbx nn s
  | .ldxImm n => Sys2Proof.Machine.execLdxImm n s
  | .ldxZp n => Sys2Proof.Machine.execLdxZp n s
  | .ldxAbs nn => Sys2Proof.Machine.execLdxAbs nn s
  | .ldxZpy n => Sys2Proof.Machine.execLdxZpy n s
  | .ldxAby nn => Sys2Proof.Machine.execLdxAby nn s
  | .ldyImm n => Sys2Proof.Machine.execLdyImm n s
  | .ldyZp n => Sys2Proof.Machine.execLdyZp n s
  | .ldyAbs nn => Sys2Proof.Machine.execLdyAbs nn s
  | .ldyZpx n => Sys2Proof.Machine.execLdyZpx n s
  | .ldyAbx nn => Sys2Proof.Machine.execLdyAbx nn s
  | .staIzx n => Sys2Proof.Machine.execStaIzx n s
  | .staZp n => Sys2Proof.Machine.execStaZp n s
  | .staAbs nn => Sys2Proof.Machine.execStaAbs nn s
  | .staIzy n => Sys2Proof.Machine.execStaIzy n s
  | .staZpx n => Sys2Proof.Machine.execStaZpx n s
  | .staAby nn => Sys2Proof.Machine.execStaAby nn s
  | .staAbx nn => Sys2Proof.Machine.execStaAbx nn s
  | .stxZp n => Sys2Proof.Machine.execStxZp n s
  | .stxAbs nn => Sys2Proof.Machine.execStxAbs nn s
  | .stxZpy n => Sys2Proof.Machine.execStxZpy n s
  | .styZp n => Sys2Proof.Machine.execStyZp n s
  | .styAbs nn => Sys2Proof.Machine.execStyAbs nn s
  | .styZpx n => Sys2Proof.Machine.execStyZpx n s
  | .tax => Sys2Proof.Machine.execTax s
  | .tay => Sys2Proof.Machine.execTay s
  | .txa => Sys2Proof.Machine.execTxa s
  | .tya => Sys2Proof.Machine.execTya s
  | .tsx => Sys2Proof.Machine.execTsx s
  | .txs => Sys2Proof.Machine.execTxs s
  | .pha => Sys2Proof.Machine.execPha s
  | .php => Sys2Proof.Machine.execPhp s
  | .pla => Sys2Proof.Machine.execPla s
  | .plp => Sys2Proof.Machine.execPlp s
  | .adcIzx n => Sys2Proof.Machine.execAdcIzx n s
  | .adcZp n => Sys2Proof.Machine.execAdcZp n s
  | .adcImm n => Sys2Proof.Machine.execAdcImm n s
  | .adcAbs nn => Sys2Proof.Machine.execAdcAbs nn s
  | .adcIzy n => Sys2Proof.Machine.execAdcIzy n s
  | .adcZpx n => Sys2Proof.Machine.execAdcZpx n s
  | .adcAby nn => Sys2Proof.Machine.execAdcAby nn s
  | .adcAbx nn => Sys2Proof.Machine.execAdcAbx nn s
  | .sbcIzx n => Sys2Proof.Machine.execSbcIzx n s
  | .sbcZp n => Sys2Proof.Machine.execSbcZp n s
  | .sbcImm n => Sys2Proof.Machine.execSbcImm n s
  | .sbcAbs nn => Sys2Proof.Machine.execSbcAbs nn s
  | .sbcIzy n => Sys2Proof.Machine.execSbcIzy n s
  | .sbcZpx n => Sys2Proof.Machine.execSbcZpx n s
  | .sbcAby nn => Sys2Proof.Machine.execSbcAby nn s
  | .sbcAbx nn => Sys2Proof.Machine.execSbcAbx nn s
  | .andIzx n => Sys2Proof.Machine.execAndIzx n s
  | .andZp n => Sys2Proof.Machine.execAndZp n s
  | .andImm n => Sys2Proof.Machine.execAndImm n s
  | .andAbs nn => Sys2Proof.Machine.execAndAbs nn s
  | .andIzy n => Sys2Proof.Machine.execAndIzy n s
  | .andZpx n => Sys2Proof.Machine.execAndZpx n s
  | .andAby nn => Sys2Proof.Machine.execAndAby nn s
  | .andAbx nn => Sys2Proof.Machine.execAndAbx nn s
  | .oraIzx n => Sys2Proof.Machine.execOraIzx n s
  | .oraZp n => Sys2Proof.Machine.execOraZp n s
  | .oraImm n => Sys2Proof.Machine.execOraImm n s
  | .oraAbs nn => Sys2Proof.Machine.execOraAbs nn s
  | .oraIzy n => Sys2Proof.Machine.execOraIzy n s
  | .oraZpx n => Sys2Proof.Machine.execOraZpx n s
  | .oraAby nn => Sys2Proof.Machine.execOraAby nn s
  | .oraAbx nn => Sys2Proof.Machine.execOraAbx nn s
  | .eorIzx n => Sys2Proof.Machine.execEorIzx n s
  | .eorZp n => Sys2Proof.Machine.execEorZp n s
  | .eorImm n => Sys2Proof.Machine.execEorImm n s
  | .eorAbs nn => Sys2Proof.Machine.execEorAbs nn s
  | .eorIzy n => Sys2Proof.Machine.execEorIzy n s
  | .eorZpx n => Sys2Proof.Machine.execEorZpx n s
  | .eorAby nn => Sys2Proof.Machine.execEorAby nn s
  | .eorAbx nn => Sys2Proof.Machine.execEorAbx nn s
  | .cmpIzx n => Sys2Proof.Machine.execCmpIzx n s
  | .cmpZp n => Sys2Proof.Machine.execCmpZp n s
  | .cmpImm n => Sys2Proof.Machine.execCmpImm n s
  | .cmpAbs nn => Sys2Proof.Machine.execCmpAbs nn s
  | .cmpIzy n => Sys2Proof.Machine.execCmpIzy n s
  | .cmpZpx n => Sys2Proof.Machine.execCmpZpx n s
  | .cmpAby nn => Sys2Proof.Machine.execCmpAby nn s
  | .cmpAbx nn => Sys2Proof.Machine.execCmpAbx nn s
  | .cpxImm n => Sys2Proof.Machine.execCpxImm n s
  | .cpxZp n => Sys2Proof.Machine.execCpxZp n s
  | .cpxAbs nn => Sys2Proof.Machine.execCpxAbs nn s
  | .cpyImm n => Sys2Proof.Machine.execCpyImm n s
  | .cpyZp n => Sys2Proof.Machine.execCpyZp n s
  | .cpyAbs nn => Sys2Proof.Machine.execCpyAbs nn s
  | .bitZp n => Sys2Proof.Machine.execBitZp n s
  | .bitAbs nn => Sys2Proof.Machine.execBitAbs nn s
  | .incZp n => Sys2Proof.Machine.execIncZp n s
  | .incAbs nn => Sys2Proof.Machine.execIncAbs nn s
  | .incZpx n => Sys2Proof.Machine.execIncZpx n s
  | .incAbx nn => Sys2Proof.Machine.execIncAbx nn s
  | .decZp n => Sys2Proof.Machine.execDecZp n s
  | .decAbs nn => Sys2Proof.Machine.execDecAbs nn s
  | .decZpx n => Sys2Proof.Machine.execDecZpx n s
  | .decAbx nn => Sys2Proof.Machine.execDecAbx nn s
  | .inx => Sys2Proof.Machine.execInx s
  | .iny => Sys2Proof.Machine.execIny s
  | .dex => Sys2Proof.Machine.execDex s
  | .dey => Sys2Proof.Machine.execDey s
  | .aslZp n => Sys2Proof.Machine.execAslZp n s
  | .aslAcc => Sys2Proof.Machine.execAslAcc s
  | .aslAbs nn => Sys2Proof.Machine.execAslAbs nn s
  | .aslZpx n => Sys2Proof.Machine.execAslZpx n s
  | .aslAbx nn => Sys2Proof.Machine.execAslAbx nn s
  | .lsrZp n => Sys2Proof.Machine.execLsrZp n s
  | .lsrAcc => Sys2Proof.Machine.execLsrAcc s
  | .lsrAbs nn => Sys2Proof.Machine.execLsrAbs nn s
  | .lsrZpx n => Sys2Proof.Machine.execLsrZpx n s
  | .lsrAbx nn => Sys2Proof.Machine.execLsrAbx nn s
  | .rolZp n => Sys2Proof.Machine.execRolZp n s
  | .rolAcc => Sys2Proof.Machine.execRolAcc s
  | .rolAbs nn => Sys2Proof.Machine.execRolAbs nn s
  | .rolZpx n => Sys2Proof.Machine.execRolZpx n s
  | .rolAbx nn => Sys2Proof.Machine.execRolAbx nn s
  | .rorZp n => Sys2Proof.Machine.execRorZp n s
  | .rorAcc => Sys2Proof.Machine.execRorAcc s
  | .rorAbs nn => Sys2Proof.Machine.execRorAbs nn s
  | .rorZpx n => Sys2Proof.Machine.execRorZpx n s
  | .rorAbx nn => Sys2Proof.Machine.execRorAbx nn s
  | .bcc n => Sys2Proof.Machine.execBcc n s
  | .bcs n => Sys2Proof.Machine.execBcs n s
  | .beq n => Sys2Proof.Machine.execBeq n s
  | .bmi n => Sys2Proof.Machine.execBmi n s
  | .bne n => Sys2Proof.Machine.execBne n s
  | .bpl n => Sys2Proof.Machine.execBpl n s
  | .bvc n => Sys2Proof.Machine.execBvc n s
  | .bvs n => Sys2Proof.Machine.execBvs n s
  | .jmpAbs nn => Sys2Proof.Machine.execJmpAbs nn s
  | .jmpInd nn => Sys2Proof.Machine.execJmpInd nn s
  | .jsr nn => Sys2Proof.Machine.execJsr nn s
  | .rts => Sys2Proof.Machine.execRts s
  | .brk => Sys2Proof.Machine.execBrk s
  | .rti => Sys2Proof.Machine.execRti s
  | .nop => Sys2Proof.Machine.execNop s
  | .clc => Sys2Proof.Machine.execClc s
  | .sec => Sys2Proof.Machine.execSec s
  | .cli => Sys2Proof.Machine.execCli s
  | .sei => Sys2Proof.Machine.execSei s
  | .cld => Sys2Proof.Machine.execCld s
  | .sed => Sys2Proof.Machine.execSed s
  | .clv => Sys2Proof.Machine.execClv s

end Sys2Proof.Machine
end

