-- ==== Sys2Proof/Machine/FetchWord.lean ====
section
/-! DEFINITION. Placing an instruction where the next step fetches it: the host's stand-in for a loaded
program (log 6, log 7). -/

namespace Sys2Proof.Machine

open Sys2Proof

/-- Whether an address is a storage or PRG cell, whose content can be placed. -/
def placeable (a : Word) : Bool :=
  match regionOf a with
  | .ram _ | .ppuReg _ | .prg _ => true
  | .io | .unmapped => false

/-- Put a byte into the storage or PRG cell an address decodes to, with no observer. -/
def placeByte (a : Word) (v : Byte) (s : State) : State :=
  match regionOf a with
  | .ram i => { s with ram := Memory.write s.ram i v }
  | .ppuReg i => { s with ppuReg := Memory.write s.ppuReg i v }
  | .prg i => { s with cart := { s.cart with
      prg := Memory.write s.cart.prg (i % s.cart.banks.size) v } }
  | .io | .unmapped => s

/-- Where an instruction can be placed: PC, or 0x0000 when the three bytes from PC are not all cells. -/
def placeAt (pc : Word) : Word :=
  if placeable pc && placeable (pc + 1#16) && placeable (pc + 2#16) then pc else 0x0000#16

/-- Put three bytes where the next step fetches, in a core that runs: not paused and with no fault. -/
def placeInstruction (b0 b1 b2 : Byte) (s : State) : State :=
  let pc := placeAt s.cpu.pc
  let t := placeByte (pc + 2#16) b2 (placeByte (pc + 1#16) b1 (placeByte pc b0 s))
  { t with cpu := { t.cpu with pc := pc }, paused := false, fault := none }

/-- The outcome of a step of a core that holds a recorded fault (R164 item 6; log 11): the same fault, the
state as it is. -/
def stillFaulted (r : FaultRecord) (s : State) : Result := .fault (raise r s)

/-- The outcome of a step of a paused core (R174, R175): nothing runs and no cycle is
consumed (log 10). -/
def whilePaused (s : State) : Result := .next (setCycles 0 s)

end Sys2Proof.Machine
end

