-- ==== Sys2Proof/Machine/Ppu.lean ====
section
/-! DEFINITION. The PPU timing machine (R181 to R184) and what the run loop does after an instruction:
the PPU update, the interrupt poll and its service (R169, R170, R174). -/

namespace Sys2Proof.Machine

open Sys2Proof

/-- The length of a frame in dots (R7, R182). -/
def frameLength (cfg : Config) : Nat := Config.linesPerFrame * cfg.lineDots

/-- The vblank event (R182): the bit is set by a direct store to the cell, with no observer, and NMI is
requested if it is enabled. -/
def raiseVblank (s : State) : State :=
  let t := writePpuReg 2 (Memory.read s.ppuReg 2 ||| 0x80#8) s
  if t.control.nmiEnable then requestInterrupt .nmi t else t

/-- The frame counter's part of a dot (R182 a). -/
def frameDot (s : State) : State :=
  if s.timing.frameDots + 1 = frameLength s.cfg then
    let t := raiseVblank s
    { t with timing := { t.timing with frameDots := 0 } }
  else { s with timing := { s.timing with frameDots := s.timing.frameDots + 1 } }

/-- `ppu_fetch()` (R183): the phase advances, 1 to 170 cyclic. The tile reads are omitted (log 12). -/
def nextPhase (phase : Nat) : Nat := phase % Config.fetchPhases + 1

/-- Whether dot number `dot` of a line fetches (R182, R183). -/
def fetches (scanline dot : Nat) : Bool :=
  20 ≤ scanline && scanline ≤ 260 && dot % 2 == 0 && dot ≤ 340

/-- The line counter's part of a dot (R182 b). -/
def lineTiming (lineDots : Nat) (t : PpuTiming) : PpuTiming :=
  let dot := t.lineDots + 1
  let phase := if fetches t.scanline dot then nextPhase t.phase else t.phase
  if dot = lineDots then
    { t with lineDots := 0, scanline := (t.scanline + 1) % Config.linesPerFrame, phase := phase }
  else { t with lineDots := dot, phase := phase }

/-- `ppu_dot()` (R182): one dot. -/
def ppuDot (s : State) : State :=
  let t := frameDot s
  { t with timing := lineTiming t.cfg.lineDots t.timing }

/-- `n` dots. -/
def ppuDots : Nat → State → State
  | 0, s => s
  | n + 1, s => ppuDots n (ppuDot s)

/-- `ppu_update(c)` (R181). -/
def ppuUpdate (c : Nat) (s : State) : State := ppuDots (Config.dotsPerCycle * c) s

/-- Service of `k` inside the run loop (R170, R174): its cycles are added to the step's and passed to the
PPU. Service cannot fault (R164), as `service_ok` of Laws shows. -/
def serviceAndUpdate (k : Interrupt) (s : State) : Result :=
  match service k s with
  | .ok _ t => .next (ppuUpdate t.cfg.intCycles (setCycles (s.cycles + t.cfg.intCycles) t))
  | .err f t => .fault (raise f (faulted f s t))

/-- `poll()` (R169). -/
def poll (s : State) : Result :=
  match s.pending with
  | none => .next s
  | some k => if gateOpen k s then serviceAndUpdate k s else .next s

/-- The rest of a run-loop iteration after an instruction that reported `cycles` (R174). -/
def afterInstruction (s : State) : Result := poll (ppuUpdate s.cycles s)

end Sys2Proof.Machine
end

