-- ==== Sys2Proof/Machine/Step.lean ====
section
/-! DEFINITION. One step: one iteration of the run loop (R97, R174), that is `run(1)`
(log 21). -/

namespace Sys2Proof.Machine

open Sys2Proof

/-- What follows the fetch (R97, R174): the instruction, the PPU update, the interrupt poll. `s` is the
state at the start of the step. -/
def runFetched (s : State) (r : Res Instr) : Result :=
  match r with
  | .err f t => .fault (raise f (faulted f s t))
  | .ok i t =>
    match exec i t with
    | .next u => afterInstruction u
    | .fault f => .fault f
    | .refused f => .refused f

/-- One iteration of the run loop (R174): fetch, execute, update the PPU, poll. A core with a recorded
fault reports it again (R164); a paused core does nothing (R175). -/
def step (s : State) : Host.Outcome State Fault Refusal :=
  match s.fault with
  | some r => stillFaulted r s
  | none => if s.paused then whilePaused s else runFetched s (fetch s)

/-- `s` with the instruction whose bits are `w` placed where `step` fetches its next instruction. -/
def State.withFetchWord (s : State) (nbits w : Nat) : State :=
  placeInstruction (tableByte nbits w 0) (tableByte nbits w 1) (tableByte nbits w 2) s

end Sys2Proof.Machine
end

