-- ==== Sys2Proof/Machine/Boot.lean ====
section
/-! DEFINITION. The cartridge image (R195), its acceptance (R196) and the power-on state (R197 to R200). -/

namespace Sys2Proof.Machine

open Sys2Proof

/-- The launch inputs of R8 other than the cartridge and the oracle. -/
structure Launch where
  initA      : Byte
  initX      : Byte
  initY      : Byte
  initS      : Byte
  initP      : Byte
  initRam    : Memory
  initPpuReg : Memory
  initVram   : Memory
  initOam    : Memory
  deriving DecidableEq, Repr

/-- The arrays of the launch inputs are arrays of their sizes, in canonical form. -/
abbrev Launch.wf (l : Launch) : Prop :=
  (Memory.wf l.initRam ∧ Memory.within 2048 l.initRam) ∧
  (Memory.wf l.initPpuReg ∧ Memory.within 8 l.initPpuReg) ∧
  (Memory.wf l.initVram ∧ Memory.within 65536 l.initVram) ∧
  (Memory.wf l.initOam ∧ Memory.within 256 l.initOam)

/-- A byte of the image; log 14 says when one is absent. -/
def imageByte (img : List Byte) (k : Nat) : Byte := img.getD k 0x00#8

/-- The mapper number, `(ctrl2 & 0xF0) + ((ctrl1 & 0xF0) >> 4)` (R195). -/
def mapperNumber (ctrl1 ctrl2 : Byte) : Byte := (ctrl2 &&& 0xF0#8) + (ctrl1 &&& 0xF0#8) >>> 4

/-- Bytes 0 to 3 are `"NES"`, 0x1A (R195). -/
def goodMagic (img : List Byte) : Bool := img.take 4 == [0x4E#8, 0x45#8, 0x53#8, 0x1A#8]

/-- The PRG bank count mapper 0 accepts (R196). -/
def prgBanksOf (n : Byte) : Option PrgBanks :=
  if n = 0x01#8 then some .one else if n = 0x02#8 then some .two else none

/-- Where PRG begins (R195): the trainer test `(ctrl1 | 4) == 1` is never true, so no trainer is ever
skipped (C8, D41). -/
def prgStart (ctrl1 : Byte) : Nat := if ctrl1 ||| 0x04#8 = 0x01#8 then 16 + 512 else 16

/-- The bytes `img[a .. a + n - 1]` as an array. -/
def imageArray (img : List Byte) (a n : Nat) : Memory := Memory.ofBytes 0 ((img.drop a).take n)

/-- The cartridge of an accepted image (R196). -/
def cartridgeOf (img : List Byte) (banks : PrgBanks) : Cartridge :=
  { banks := banks
    prg := imageArray img (prgStart (imageByte img 6)) banks.size
    chr := imageArray img (prgStart (imageByte img 6) + banks.size) 8192 }

/-- Acceptance (R196): the checks in the spec's order. An image too short to hold the bytes the
checks read fails the length check (log 14). -/
def loadImage (img : List Byte) : Except Refusal Cartridge :=
  if goodMagic img = false then .error .corruptRomImage
  else if img.length < 8 then .error .corruptRomImage
  else if mapperNumber (imageByte img 6) (imageByte img 7) ≠ 0x00#8 then
    .error (.unsupportedMapper (mapperNumber (imageByte img 6) (imageByte img 7)))
  else
    match prgBanksOf (imageByte img 4) with
    | none => .error (.unsupportedMapper 0x00#8)
    | some banks =>
      if imageByte img 5 ≠ 0x01#8 then .error (.unsupportedMapper 0x00#8)
      else if img.length < 16 + banks.size + 8192 then .error .corruptRomImage
      else .ok (cartridgeOf img banks)

/-- `P` at power-on (R199). -/
def powerOnStatus (cfg : Config) (v : Byte) : Byte :=
  match cfg.bFlagMode with
  | .absent => v ||| 0x04#8
  | .nmos => v &&& 0xCF#8 ||| 0x24#8

/-- The RESET vector read directly from PRG (R199). -/
def resetVector (c : Cartridge) : Word := joinBytes (prgByte c 0x7FFD) (prgByte c 0x7FFC)

/-- The power-on state (R197 to R200): memory, CHR over VRAM 0x0000 to 0x1FFF, the PPU's reset state,
and the CPU at the RESET vector. -/
def powerOn (cfg : Config) (l : Launch) (c : Cartridge) : State where
  cpu := { a := l.initA, x := l.initX, y := l.initY, sp := l.initS,
           p := powerOnStatus cfg l.initP, pc := resetVector c }
  pending := none
  fault := none
  paused := false
  ioSeq := 0
  ram := l.initRam
  ppuReg := l.initPpuReg
  vram := Memory.overlay 8192 c.chr l.initVram
  oam := l.initOam
  cart := c
  timing := PpuTiming.reset
  control := PpuControl.reset
  cursors := PpuCursors.reset
  cycles := 0
  cfg := cfg

/-- A launch (R196, R200): a refusal, or the power-on state. -/
def launch (cfg : Config) (l : Launch) (img : List Byte) : Result :=
  match loadImage img with
  | .ok c => .next (powerOn cfg l c)
  | .error r => .refused r

/-- The launch inputs of `State.reset` (log 4, log 5). -/
def Launch.zero : Launch where
  initA := 0x00#8
  initX := 0x00#8
  initY := 0x00#8
  initS := 0xFD#8
  initP := 0x34#8
  initRam := []
  initPpuReg := []
  initVram := []
  initOam := []

/-- The blank cartridge of `State.reset` (log 6). -/
def Cartridge.blank : Cartridge := { banks := .one, prg := [], chr := [] }

end Sys2Proof.Machine
end

