-- ==== Sys2Proof/Machine/HostOps.lean ====
section
/-! DEFINITION. The host interface (R174 to R177): the run loop, pause and resume, interrupt requests and
the read-only accessors. -/

namespace Sys2Proof.Machine

open Sys2Proof

/-- What `run` returns, with the state it leaves (R174). -/
structure RunResult where
  consumed : Nat
  fault    : Option FaultRecord
  state    : State
  deriving DecidableEq, Repr

/-- The state a fault carries (log 9). -/
def faultState : Fault → State
  | .addressOutOfRange _ _ left => left
  | .unknownOpcode _ _ left => left

/-- The record of a fault (R29). -/
def faultRecord : Fault → FaultRecord
  | .addressOutOfRange a d _ => .addressOutOfRange a d
  | .unknownOpcode pc op _ => .unknownOpcode pc op

/-- The loop of `run` (R174), for at most `fuel` iterations. -/
def runLoop (budget : Nat) : Nat → Nat → State → RunResult
  | 0, consumed, s => { consumed := consumed, fault := s.fault, state := s }
  | fuel + 1, consumed, s =>
    if s.fault.isSome || budget < consumed || s.paused then
      { consumed := consumed, fault := s.fault, state := s }
    else
      match step s with
      | .next t => runLoop budget fuel (consumed + t.cycles) t
      | .fault f => { consumed := consumed, fault := some (faultRecord f), state := faultState f }
      | .refused _ => { consumed := consumed, fault := s.fault, state := s }

/-- `run(budget)` (R174). Every iteration consumes at least 2 cycles, so `budget + 1` iterations are
never too few (log 18). -/
def run (budget : Nat) (s : State) : RunResult := runLoop budget (budget + 1) 0 s

/-- `pause()` (R175). -/
def pause (s : State) : State := { s with paused := true }

/-- `resume()` (R175). -/
def resume (s : State) : State := { s with paused := false }

/-- A host interrupt request (R176). -/
def hostRequest (k : Interrupt) (s : State) : State := requestInterrupt k s

/-- What `peek` reports (R177; log 16). -/
inductive Peek where
  /-- A storage or PRG byte. -/
  | byte (v : Byte)
  /-- An I/O address: no value, and no draw. -/
  | nothing
  /-- An unmapped address; the fault record is not set. -/
  | outOfRange (addr : Word)
  deriving DecidableEq, Repr

/-- `peek(addr)` (R177): no observer runs and nothing changes. -/
def peek (a : Word) (s : State) : Peek :=
  match regionOf a with
  | .ram i => .byte (Memory.read s.ram i)
  | .ppuReg i => .byte (Memory.read s.ppuReg i)
  | .io => .nothing
  | .prg i => .byte (prgByte s.cart i)
  | .unmapped => .outOfRange a

/-- `pc` (R177). -/
def viewPc (s : State) : Word := s.cpu.pc

/-- `a` (R177). -/
def viewA (s : State) : Byte := s.cpu.a

/-- `x` (R177). -/
def viewX (s : State) : Byte := s.cpu.x

/-- `y` (R177). -/
def viewY (s : State) : Byte := s.cpu.y

/-- `s` (R177, D46). -/
def viewS (s : State) : Byte := s.cpu.sp

/-- `status` (R177). -/
def viewStatus (s : State) : Byte := s.cpu.p

/-- `fault` (R177, D46). -/
def viewFault (s : State) : Option FaultRecord := s.fault

/-- `current_scanline` (R177). -/
def viewScanline (s : State) : Nat := s.timing.scanline

/-- `memory_fetch_phase` (R177). -/
def viewPhase (s : State) : Nat := s.timing.phase

/-- `vram_read(addr)` (R177). -/
def viewVram (a : Word) (s : State) : Byte := vramRead a s

/-- `oam_read(i)` (R177, D46). -/
def viewOam (i : Byte) (s : State) : Byte := Memory.read s.oam i.toNat

end Sys2Proof.Machine
end

