-- ==== Sys2Proof/Safety.lean ====
section
/-! DEFINITION. The terms in which claims speak of the machine: the invariant of its states, and the pure
views of what an access reads. -/

namespace Sys2Proof.Machine

open Sys2Proof

/-- Every array is canonical and inside its size (R6, R32). -/
structure MemOk (s : State) : Prop where
  ram    : Memory.wf s.ram ∧ Memory.within 2048 s.ram
  ppuReg : Memory.wf s.ppuReg ∧ Memory.within 8 s.ppuReg
  vram   : Memory.wf s.vram ∧ Memory.within 65536 s.vram
  oam    : Memory.wf s.oam ∧ Memory.within 256 s.oam
  prg    : Memory.wf s.cart.prg ∧ Memory.within s.cart.banks.size s.cart.prg
  chr    : Memory.wf s.cart.chr ∧ Memory.within 8192 s.cart.chr

/-- The fetch phase that a position in the frame fixes (R183): 1 at the start of every line, one more per
even dot up to 340 of lines 20 to 260. -/
def phaseAt (scanline lineDots : Nat) : Nat :=
  if 20 ≤ scanline ∧ scanline ≤ 260 then min lineDots 340 / 2 % 170 + 1 else 1

/-- The PPU counters stay in their ranges (R33), count the same frame (R182), and fix the phase (R183). -/
structure TimingOk (lineDots : Nat) (t : PpuTiming) : Prop where
  line     : t.lineDots < lineDots
  scanline : t.scanline < 262
  frame    : t.frameDots = t.scanline * lineDots + t.lineDots
  phase    : t.phase = phaseAt t.scanline t.lineDots

/-- Bits 4 and 5 of `P` under `B_FLAG_MODE = nmos` (R24). -/
def StatusOk (cfg : Config) (p : Byte) : Prop :=
  cfg.bFlagMode = .nmos → getFlag .bit5 p = true ∧ getFlag .b p = false

/-- The invariant of the machine's states. -/
structure Inv (s : State) : Prop where
  config : Config.wf s.cfg
  memory : MemOk s
  timing : TimingOk s.cfg.lineDots s.timing
  status : StatusOk s.cfg s.cpu.p

/-- A core that runs: no recorded fault, not paused (R174). -/
def Running (s : State) : Prop := s.fault = none ∧ s.paused = false

/-- What an access may not change: the registers, the interrupt slot, the fault record, the pause flag,
the cartridge, the PPU counters, the reported cycles and the parameters. -/
structure AccessFrame (s t : State) : Prop where
  cpu     : t.cpu = s.cpu
  pending : t.pending = s.pending
  fault   : t.fault = s.fault
  paused  : t.paused = s.paused
  cart    : t.cart = s.cart
  timing  : t.timing = s.timing
  cycles  : t.cycles = s.cycles
  cfg     : t.cfg = s.cfg

/-- The state after an access, whether or not it faulted. -/
def Res.after {α : Type} : Res α → State
  | .ok _ s => s
  | .err _ s => s

/-- The address is in no region of the decode map (R45, R48, R50). -/
def Unmapped (a : Word) : Prop :=
  (0x2008 ≤ a.toNat ∧ a.toNat < 0x4000) ∨ (0x4020 ≤ a.toNat ∧ a.toNat < 0x8000)

/-- A zero-page byte, at an index that wraps mod 256. -/
def zeroPageByte (s : State) (n : Byte) : Byte := Memory.read s.ram n.toNat

/-- The zero-page pointer at `n` (R87, R88). -/
def zeroPagePointer (s : State) (n : Byte) : Word :=
  joinBytes (zeroPageByte s (n + 1#8)) (zeroPageByte s n)

/-- The effective address of a memory operand as a function of the state (R81 to R88). -/
def placeEff (p : Place) (s : State) : EffAddr :=
  match p with
  | .zp n => { addr := zext16 n, crossed := false }
  | .zpx n => { addr := zext16 (n + s.cpu.x), crossed := false }
  | .zpy n => { addr := zext16 (n + s.cpu.y), crossed := false }
  | .abs nn => { addr := nn, crossed := false }
  | .abx nn => indexed nn s.cpu.x
  | .aby nn => indexed nn s.cpu.y
  | .izx n => { addr := zeroPagePointer s (n + s.cpu.x), crossed := false }
  | .izy n => indexed (zeroPagePointer s n) s.cpu.y

/-- A stack byte (R17). -/
def stackByte (s : State) (sp : Byte) : Byte := Memory.read s.ram (0x0100 + sp.toNat)

/-- The word the vector reads at `a` give (R55, R61), for `a` from 0x8000 to 0xFFFE. -/
def prgWord (c : Cartridge) (a : Word) : Word :=
  joinBytes (prgByte c (a.toNat - 0x7FFF)) (prgByte c (a.toNat - 0x8000))

/-- Memory after a push of `v` at `S` (R57). -/
def pushed (ram : Memory) (sp v : Byte) : Memory := Memory.write ram (0x0100 + sp.toNat) v

/-- The cells of the VRAM mirror set (R63) share a key: below 0x3F00 the address in the 16 KiB image, from
0x3F00 on the palette entry, in which 0x10, 0x14, 0x18 and 0x1C are 0x00, 0x04, 0x08 and 0x0C. -/
def vramKey (a : Nat) : Nat :=
  let c := a % 0x4000
  let e := c % 32
  if c < 0x3F00 then c else 0x3F00 + if e % 4 = 0 then e % 16 else e

/-- Two VRAM addresses of one mirrored cell (R63); the upper half is not mirrored. -/
abbrev SameVram (a b : Nat) : Prop := a = b ∨ (a < 0x8000 ∧ b < 0x8000 ∧ vramKey a = vramKey b)

end Sys2Proof.Machine
end

