-- ==== Sys2Proof/Forms.lean ====
section
/-! DEFINITION. The rows of the instruction tables (40_load_store.md to 45_flags.md) as claims speak of
them, written from the spec's tables and not from the meanings, and what it is for a row to do what its
rule says. -/

namespace Sys2Proof.Machine

open Sys2Proof

/-! ## What accesses are allowed -/

/-- An address `Write8` accepts the byte `v` at: mapped, not in the PRG window under
`ROM_WRITE_MODE = fault`, and for 0x4014 a source page that is readable in full (R100 items 5, 6). -/
def Writable (cfg : Config) (a : Word) (v : Byte) : Prop :=
  ¬Unmapped a ∧ (0x8000 ≤ a.toNat → cfg.romWriteMode = .ignore) ∧
    (a = 0x4014#16 → v.toNat < 0x20 ∨ 0x80 ≤ v.toNat)

/-- Two CPU addresses of one storage cell (R46): equal, or RAM addresses 2 KiB copies apart. -/
def SameCell (a b : Word) : Prop :=
  a = b ∨ (a.toNat < 0x2000 ∧ b.toNat < 0x2000 ∧ a.toNat % 0x0800 = b.toNat % 0x0800)

/-- The fault a step that began in `s` reports, when its earlier accesses left `t` (R164). -/
def faultOf (r : FaultRecord) (s t : State) : Fault :=
  raise r { t with cpu := s.cpu, cycles := 0, fault := some r }

/-- The operand byte of a read-class instruction (R80, R91). -/
def sourceRead (src : Source) (s : State) : Res Byte :=
  match src with
  | .imm n => .ok n s
  | .mem p => read8 (placeEff p s).addr s

/-- Whether indexing the operand crossed a page (R85, R86, R88). -/
def sourceCrossed (src : Source) (s : State) : Bool :=
  match src with
  | .imm _ => false
  | .mem p => (placeEff p s).crossed

/-- The operand can be read: it is an immediate, or its address is mapped (R100 item 4). -/
def Source.readable (src : Source) (s : State) : Prop :=
  match src with
  | .imm _ => True
  | .mem p => ¬Unmapped (placeEff p s).addr

/-! ## The shapes of the rules -/

/-- A row of a read-class table: the instruction, its bytes, its operand, the cycle column, and the last
column (one more cycle for a crossed page under `INDEX_PAGE_PENALTY = on`). -/
structure ReadForm where
  instr   : Instr
  bytes   : List Byte
  source  : Source
  cycles  : Nat
  penalty : Bool

/-- A row of a store or read-modify-write table. -/
structure PlaceForm where
  instr  : Instr
  bytes  : List Byte
  place  : Place
  cycles : Nat

/-- A row of a one-byte instruction. -/
structure PlainForm where
  instr  : Instr
  opcode : Byte
  cycles : Nat

/-- A row of a branch: the flag it tests and the value it is taken on. -/
structure BranchForm where
  instr  : Instr
  opcode : Byte
  flag   : Flag
  takenOn : Bool

/-- `PC` past an instruction of these bytes (R98). -/
def nextPc (bytes : List Byte) (s : State) : Word := s.cpu.pc + BitVec.ofNat 16 bytes.length

/-- A read-class row does what its rule says: its encoding; where the operand can be read, one read and
then a next state that differs from the read's state only in the registers, PC and the cycles; where it
cannot, the fault. -/
def ReadRule (f : ReadForm) (op : Config → Byte → Cpu → Cpu) (s : State) : Prop :=
  encode f.instr = f.bytes ∧
  (f.source.readable s → ∃ m u, sourceRead f.source s = .ok m u ∧
    exec f.instr s = .next { u with
      cpu := { op s.cfg m s.cpu with pc := nextPc f.bytes s }
      cycles := f.cycles +
        if f.penalty ∧ sourceCrossed f.source s ∧ s.cfg.pagePenalty = .on then 1 else 0 }) ∧
  (∀ p, f.source = .mem p → Unmapped (placeEff p s).addr →
    exec f.instr s = .fault (faultOf (.addressOutOfRange (placeEff p s).addr .read) s s))

/-- A store row does what its rule says: its encoding; one write of the register's value at the effective
address, and then a next state that differs from the write's state only in PC and the cycles, or the fault
the write raises. -/
def StoreRule (f : PlaceForm) (value : Cpu → Byte) (s : State) : Prop :=
  let ea := (placeEff f.place s).addr
  encode f.instr = f.bytes ∧
  (Writable s.cfg ea (value s.cpu) → ∃ u, write8 ea (value s.cpu) s = .ok () u ∧
    exec f.instr s = .next { u with
      cpu := { s.cpu with pc := nextPc f.bytes s }
      cycles := f.cycles + if ea = 0x4014#16 then s.cfg.dmaCycles else 0 }) ∧
  (¬Writable s.cfg ea (value s.cpu) → ∃ r u, write8 ea (value s.cpu) s = .err r u ∧
    exec f.instr s = .fault (faultOf r s u))

/-- A read-modify-write row does what its rule says: its encoding; one read and one write of the result,
flags from the result; a fault on the read where the address is unmapped, else on the write where it is
not writable. `alu` gives the result and the new `P` from the operand and the old `P`. -/
def ModifyRule (f : PlaceForm) (alu : Byte → Byte → Byte × Byte) (s : State) : Prop :=
  let ea := (placeEff f.place s).addr
  encode f.instr = f.bytes ∧
  (¬Unmapped ea → ∃ v u, read8 ea s = .ok v u ∧
    (Writable s.cfg ea (alu v s.cpu.p).1 → ∃ w, write8 ea (alu v s.cpu.p).1 u = .ok () w ∧
      exec f.instr s = .next { w with
        cpu := { s.cpu with p := (alu v s.cpu.p).2, pc := nextPc f.bytes s }
        cycles := f.cycles + if ea = 0x4014#16 then s.cfg.dmaCycles else 0 }) ∧
    (¬Writable s.cfg ea (alu v s.cpu.p).1 → ∃ r w, write8 ea (alu v s.cpu.p).1 u = .err r w ∧
      exec f.instr s = .fault (faultOf r s w))) ∧
  (Unmapped ea → exec f.instr s = .fault (faultOf (.addressOutOfRange ea .read) s s))

/-- A one-byte row that works on the registers alone does what its rule says, in every state. -/
def PlainRule (f : PlainForm) (op : Cpu → Cpu) (s : State) : Prop :=
  encode f.instr = [f.opcode] ∧
  exec f.instr s = .next { s with
    cpu := { op s.cpu with pc := s.cpu.pc + 1#16 }
    cycles := f.cycles }

/-- A branch row does what R138 says, in every state. -/
def BranchRule (f : BranchForm) (n : Byte) (s : State) : Prop :=
  let next := s.cpu.pc + 2#16
  let target : Word := BitVec.ofInt 16 (s.cpu.pc.toNat + 2 + n.toInt)
  encode f.instr = [f.opcode, n] ∧
  (getFlag f.flag s.cpu.p = f.takenOn → exec f.instr s = .next { s with
    cpu := { s.cpu with pc := target }
    cycles := if target.toNat / 256 = next.toNat / 256 then 3 else 4 }) ∧
  (getFlag f.flag s.cpu.p ≠ f.takenOn → exec f.instr s = .next { s with
    cpu := { s.cpu with pc := next }
    cycles := 2 })

/-! ## The tables -/

/-- The forms of LDA (the table of R101). -/
def ldaForms (n : Byte) (nn : Word) : List ReadForm := [
  ⟨.ldaIzx n, [0xA1#8, n], .mem (.izx n), 6, false⟩,
  ⟨.ldaZp n, [0xA5#8, n], .mem (.zp n), 3, false⟩,
  ⟨.ldaImm n, [0xA9#8, n], .imm n, 2, false⟩,
  ⟨.ldaAbs nn, [0xAD#8, lowByte nn, highByte nn], .mem (.abs nn), 4, false⟩,
  ⟨.ldaIzy n, [0xB1#8, n], .mem (.izy n), 5, true⟩,
  ⟨.ldaZpx n, [0xB5#8, n], .mem (.zpx n), 4, false⟩,
  ⟨.ldaAby nn, [0xB9#8, lowByte nn, highByte nn], .mem (.aby nn), 4, true⟩,
  ⟨.ldaAbx nn, [0xBD#8, lowByte nn, highByte nn], .mem (.abx nn), 4, true⟩]

/-- The forms of LDX (the table of R102). -/
def ldxForms (n : Byte) (nn : Word) : List ReadForm := [
  ⟨.ldxImm n, [0xA2#8, n], .imm n, 2, false⟩,
  ⟨.ldxZp n, [0xA6#8, n], .mem (.zp n), 3, false⟩,
  ⟨.ldxAbs nn, [0xAE#8, lowByte nn, highByte nn], .mem (.abs nn), 4, false⟩,
  ⟨.ldxZpy n, [0xB6#8, n], .mem (.zpy n), 4, false⟩,
  ⟨.ldxAby nn, [0xBE#8, lowByte nn, highByte nn], .mem (.aby nn), 4, true⟩]

/-- The forms of LDY (the table of R103). -/
def ldyForms (n : Byte) (nn : Word) : List ReadForm := [
  ⟨.ldyImm n, [0xA0#8, n], .imm n, 2, false⟩,
  ⟨.ldyZp n, [0xA4#8, n], .mem (.zp n), 3, false⟩,
  ⟨.ldyAbs nn, [0xAC#8, lowByte nn, highByte nn], .mem (.abs nn), 4, false⟩,
  ⟨.ldyZpx n, [0xB4#8, n], .mem (.zpx n), 4, false⟩,
  ⟨.ldyAbx nn, [0xBC#8, lowByte nn, highByte nn], .mem (.abx nn), 4, true⟩]

/-- The forms of ADC (the table of R117). -/
def adcForms (n : Byte) (nn : Word) : List ReadForm := [
  ⟨.adcIzx n, [0x61#8, n], .mem (.izx n), 6, false⟩,
  ⟨.adcZp n, [0x65#8, n], .mem (.zp n), 3, false⟩,
  ⟨.adcImm n, [0x69#8, n], .imm n, 2, false⟩,
  ⟨.adcAbs nn, [0x6D#8, lowByte nn, highByte nn], .mem (.abs nn), 4, false⟩,
  ⟨.adcIzy n, [0x71#8, n], .mem (.izy n), 5, true⟩,
  ⟨.adcZpx n, [0x75#8, n], .mem (.zpx n), 4, false⟩,
  ⟨.adcAby nn, [0x79#8, lowByte nn, highByte nn], .mem (.aby nn), 4, true⟩,
  ⟨.adcAbx nn, [0x7D#8, lowByte nn, highByte nn], .mem (.abx nn), 4, true⟩]

/-- The forms of SBC (the table of R119). -/
def sbcForms (n : Byte) (nn : Word) : List ReadForm := [
  ⟨.sbcIzx n, [0xE1#8, n], .mem (.izx n), 6, false⟩,
  ⟨.sbcZp n, [0xE5#8, n], .mem (.zp n), 3, false⟩,
  ⟨.sbcImm n, [0xE9#8, n], .imm n, 2, false⟩,
  ⟨.sbcAbs nn, [0xED#8, lowByte nn, highByte nn], .mem (.abs nn), 4, false⟩,
  ⟨.sbcIzy n, [0xF1#8, n], .mem (.izy n), 5, true⟩,
  ⟨.sbcZpx n, [0xF5#8, n], .mem (.zpx n), 4, false⟩,
  ⟨.sbcAby nn, [0xF9#8, lowByte nn, highByte nn], .mem (.aby nn), 4, true⟩,
  ⟨.sbcAbx nn, [0xFD#8, lowByte nn, highByte nn], .mem (.abx nn), 4, true⟩]

/-- The forms of AND (the table of R121). -/
def andForms (n : Byte) (nn : Word) : List ReadForm := [
  ⟨.andIzx n, [0x21#8, n], .mem (.izx n), 6, false⟩,
  ⟨.andZp n, [0x25#8, n], .mem (.zp n), 3, false⟩,
  ⟨.andImm n, [0x29#8, n], .imm n, 2, false⟩,
  ⟨.andAbs nn, [0x2D#8, lowByte nn, highByte nn], .mem (.abs nn), 4, false⟩,
  ⟨.andIzy n, [0x31#8, n], .mem (.izy n), 5, true⟩,
  ⟨.andZpx n, [0x35#8, n], .mem (.zpx n), 4, false⟩,
  ⟨.andAby nn, [0x39#8, lowByte nn, highByte nn], .mem (.aby nn), 4, true⟩,
  ⟨.andAbx nn, [0x3D#8, lowByte nn, highByte nn], .mem (.abx nn), 4, true⟩]

/-- The forms of ORA (the table of R122). -/
def oraForms (n : Byte) (nn : Word) : List ReadForm := [
  ⟨.oraIzx n, [0x01#8, n], .mem (.izx n), 6, false⟩,
  ⟨.oraZp n, [0x05#8, n], .mem (.zp n), 3, false⟩,
  ⟨.oraImm n, [0x09#8, n], .imm n, 2, false⟩,
  ⟨.oraAbs nn, [0x0D#8, lowByte nn, highByte nn], .mem (.abs nn), 4, false⟩,
  ⟨.oraIzy n, [0x11#8, n], .mem (.izy n), 5, true⟩,
  ⟨.oraZpx n, [0x15#8, n], .mem (.zpx n), 4, false⟩,
  ⟨.oraAby nn, [0x19#8, lowByte nn, highByte nn], .mem (.aby nn), 4, true⟩,
  ⟨.oraAbx nn, [0x1D#8, lowByte nn, highByte nn], .mem (.abx nn), 4, true⟩]

/-- The forms of EOR (the table of R123). -/
def eorForms (n : Byte) (nn : Word) : List ReadForm := [
  ⟨.eorIzx n, [0x41#8, n], .mem (.izx n), 6, false⟩,
  ⟨.eorZp n, [0x45#8, n], .mem (.zp n), 3, false⟩,
  ⟨.eorImm n, [0x49#8, n], .imm n, 2, false⟩,
  ⟨.eorAbs nn, [0x4D#8, lowByte nn, highByte nn], .mem (.abs nn), 4, false⟩,
  ⟨.eorIzy n, [0x51#8, n], .mem (.izy n), 5, true⟩,
  ⟨.eorZpx n, [0x55#8, n], .mem (.zpx n), 4, false⟩,
  ⟨.eorAby nn, [0x59#8, lowByte nn, highByte nn], .mem (.aby nn), 4, true⟩,
  ⟨.eorAbx nn, [0x5D#8, lowByte nn, highByte nn], .mem (.abx nn), 4, true⟩]

/-- The forms of CMP (the table of R124). -/
def cmpForms (n : Byte) (nn : Word) : List ReadForm := [
  ⟨.cmpIzx n, [0xC1#8, n], .mem (.izx n), 6, false⟩,
  ⟨.cmpZp n, [0xC5#8, n], .mem (.zp n), 3, false⟩,
  ⟨.cmpImm n, [0xC9#8, n], .imm n, 2, false⟩,
  ⟨.cmpAbs nn, [0xCD#8, lowByte nn, highByte nn], .mem (.abs nn), 4, false⟩,
  ⟨.cmpIzy n, [0xD1#8, n], .mem (.izy n), 5, true⟩,
  ⟨.cmpZpx n, [0xD5#8, n], .mem (.zpx n), 4, false⟩,
  ⟨.cmpAby nn, [0xD9#8, lowByte nn, highByte nn], .mem (.aby nn), 4, true⟩,
  ⟨.cmpAbx nn, [0xDD#8, lowByte nn, highByte nn], .mem (.abx nn), 4, true⟩]

/-- The forms of CPX (the table of R125). -/
def cpxForms (n : Byte) (nn : Word) : List ReadForm := [
  ⟨.cpxImm n, [0xE0#8, n], .imm n, 2, false⟩,
  ⟨.cpxZp n, [0xE4#8, n], .mem (.zp n), 3, false⟩,
  ⟨.cpxAbs nn, [0xEC#8, lowByte nn, highByte nn], .mem (.abs nn), 4, false⟩]

/-- The forms of CPY (the table of R126). -/
def cpyForms (n : Byte) (nn : Word) : List ReadForm := [
  ⟨.cpyImm n, [0xC0#8, n], .imm n, 2, false⟩,
  ⟨.cpyZp n, [0xC4#8, n], .mem (.zp n), 3, false⟩,
  ⟨.cpyAbs nn, [0xCC#8, lowByte nn, highByte nn], .mem (.abs nn), 4, false⟩]

/-- The forms of BIT (the table of R127). -/
def bitForms (n : Byte) (nn : Word) : List ReadForm := [
  ⟨.bitZp n, [0x24#8, n], .mem (.zp n), 3, false⟩,
  ⟨.bitAbs nn, [0x2C#8, lowByte nn, highByte nn], .mem (.abs nn), 4, false⟩]

/-- The forms of STA (the table of R104). -/
def staForms (n : Byte) (nn : Word) : List PlaceForm := [
  ⟨.staIzx n, [0x81#8, n], .izx n, 6⟩,
  ⟨.staZp n, [0x85#8, n], .zp n, 3⟩,
  ⟨.staAbs nn, [0x8D#8, lowByte nn, highByte nn], .abs nn, 4⟩,
  ⟨.staIzy n, [0x91#8, n], .izy n, 6⟩,
  ⟨.staZpx n, [0x95#8, n], .zpx n, 4⟩,
  ⟨.staAby nn, [0x99#8, lowByte nn, highByte nn], .aby nn, 5⟩,
  ⟨.staAbx nn, [0x9D#8, lowByte nn, highByte nn], .abx nn, 5⟩]

/-- The forms of STX (the table of R105). -/
def stxForms (n : Byte) (nn : Word) : List PlaceForm := [
  ⟨.stxZp n, [0x86#8, n], .zp n, 3⟩,
  ⟨.stxAbs nn, [0x8E#8, lowByte nn, highByte nn], .abs nn, 4⟩,
  ⟨.stxZpy n, [0x96#8, n], .zpy n, 4⟩]

/-- The forms of STY (the table of R106). -/
def styForms (n : Byte) (nn : Word) : List PlaceForm := [
  ⟨.styZp n, [0x84#8, n], .zp n, 3⟩,
  ⟨.styAbs nn, [0x8C#8, lowByte nn, highByte nn], .abs nn, 4⟩,
  ⟨.styZpx n, [0x94#8, n], .zpx n, 4⟩]

/-- The forms of INC (the table of R128). -/
def incForms (n : Byte) (nn : Word) : List PlaceForm := [
  ⟨.incZp n, [0xE6#8, n], .zp n, 5⟩,
  ⟨.incAbs nn, [0xEE#8, lowByte nn, highByte nn], .abs nn, 6⟩,
  ⟨.incZpx n, [0xF6#8, n], .zpx n, 6⟩,
  ⟨.incAbx nn, [0xFE#8, lowByte nn, highByte nn], .abx nn, 7⟩]

/-- The forms of DEC (the table of R129). -/
def decForms (n : Byte) (nn : Word) : List PlaceForm := [
  ⟨.decZp n, [0xC6#8, n], .zp n, 5⟩,
  ⟨.decAbs nn, [0xCE#8, lowByte nn, highByte nn], .abs nn, 6⟩,
  ⟨.decZpx n, [0xD6#8, n], .zpx n, 6⟩,
  ⟨.decAbx nn, [0xDE#8, lowByte nn, highByte nn], .abx nn, 7⟩]

/-- The memory forms of ASL (the table of R134). -/
def aslForms (n : Byte) (nn : Word) : List PlaceForm := [
  ⟨.aslZp n, [0x06#8, n], .zp n, 5⟩,
  ⟨.aslAbs nn, [0x0E#8, lowByte nn, highByte nn], .abs nn, 6⟩,
  ⟨.aslZpx n, [0x16#8, n], .zpx n, 6⟩,
  ⟨.aslAbx nn, [0x1E#8, lowByte nn, highByte nn], .abx nn, 7⟩]

/-- The memory forms of LSR (the table of R135). -/
def lsrForms (n : Byte) (nn : Word) : List PlaceForm := [
  ⟨.lsrZp n, [0x46#8, n], .zp n, 5⟩,
  ⟨.lsrAbs nn, [0x4E#8, lowByte nn, highByte nn], .abs nn, 6⟩,
  ⟨.lsrZpx n, [0x56#8, n], .zpx n, 6⟩,
  ⟨.lsrAbx nn, [0x5E#8, lowByte nn, highByte nn], .abx nn, 7⟩]

/-- The memory forms of ROL (the table of R136). -/
def rolForms (n : Byte) (nn : Word) : List PlaceForm := [
  ⟨.rolZp n, [0x26#8, n], .zp n, 5⟩,
  ⟨.rolAbs nn, [0x2E#8, lowByte nn, highByte nn], .abs nn, 6⟩,
  ⟨.rolZpx n, [0x36#8, n], .zpx n, 6⟩,
  ⟨.rolAbx nn, [0x3E#8, lowByte nn, highByte nn], .abx nn, 7⟩]

/-- The memory forms of ROR (the table of R137). -/
def rorForms (n : Byte) (nn : Word) : List PlaceForm := [
  ⟨.rorZp n, [0x66#8, n], .zp n, 5⟩,
  ⟨.rorAbs nn, [0x6E#8, lowByte nn, highByte nn], .abs nn, 6⟩,
  ⟨.rorZpx n, [0x76#8, n], .zpx n, 6⟩,
  ⟨.rorAbx nn, [0x7E#8, lowByte nn, highByte nn], .abx nn, 7⟩]

/-- The rows of the eight branches (R139 to R146). -/
def branchForms (n : Byte) : List BranchForm := [
  ⟨.bcc n, 0x90#8, .c, false⟩,
  ⟨.bcs n, 0xB0#8, .c, true⟩,
  ⟨.beq n, 0xF0#8, .z, true⟩,
  ⟨.bmi n, 0x30#8, .n, true⟩,
  ⟨.bne n, 0xD0#8, .z, false⟩,
  ⟨.bpl n, 0x10#8, .n, false⟩,
  ⟨.bvc n, 0x50#8, .v, false⟩,
  ⟨.bvs n, 0x70#8, .v, true⟩]

/-- Every read-class row (R91). -/
def readForms (n : Byte) (nn : Word) : List ReadForm :=
  ldaForms n nn ++ ldxForms n nn ++ ldyForms n nn ++ adcForms n nn ++ sbcForms n nn ++ andForms n nn ++
    oraForms n nn ++ eorForms n nn ++ cmpForms n nn ++ cpxForms n nn ++ cpyForms n nn ++ bitForms n nn

/-- Every write-class row (R91). -/
def storeForms (n : Byte) (nn : Word) : List PlaceForm :=
  staForms n nn ++ stxForms n nn ++ styForms n nn

/-- Every read-modify-write row (R91). -/
def modifyForms (n : Byte) (nn : Word) : List PlaceForm :=
  incForms n nn ++ decForms n nn ++ aslForms n nn ++ lsrForms n nn ++ rolForms n nn ++ rorForms n nn

/-- The instructions that touch no memory after their bytes are fetched (R78, R79, R138, R148). -/
def quietInstrs (n : Byte) (nn : Word) : List Instr :=
  [.tax, .tay, .txa, .tya, .tsx, .txs, .inx, .iny, .dex, .dey, .aslAcc, .lsrAcc, .rolAcc, .rorAcc,
    .bcc n, .bcs n, .beq n, .bmi n, .bne n, .bpl n, .bvc n, .bvs n, .jmpAbs nn, .nop,
    .clc, .sec, .cli, .sei, .cld, .sed, .clv]

/-- The instructions that only pull from the stack (R57). -/
def pullInstrs : List Instr := [.pla, .plp, .rts, .rti]

/-- The instructions that push, with the number of bytes each pushes (R57). -/
def pushInstrs (nn : Word) : List (Instr × Nat) := [(.pha, 1), (.php, 1), (.jsr nn, 2), (.brk, 3)]

/-- The opcode bytes of the map of R92, row by row of its grid. -/
def documentedOpcodes : List Byte :=
  [0x00#8, 0x01#8, 0x05#8, 0x06#8, 0x08#8, 0x09#8, 0x0A#8, 0x0D#8, 0x0E#8] ++
  [0x10#8, 0x11#8, 0x15#8, 0x16#8, 0x18#8, 0x19#8, 0x1D#8, 0x1E#8] ++
  [0x20#8, 0x21#8, 0x24#8, 0x25#8, 0x26#8, 0x28#8, 0x29#8, 0x2A#8, 0x2C#8, 0x2D#8, 0x2E#8] ++
  [0x30#8, 0x31#8, 0x35#8, 0x36#8, 0x38#8, 0x39#8, 0x3D#8, 0x3E#8] ++
  [0x40#8, 0x41#8, 0x45#8, 0x46#8, 0x48#8, 0x49#8, 0x4A#8, 0x4C#8, 0x4D#8, 0x4E#8] ++
  [0x50#8, 0x51#8, 0x55#8, 0x56#8, 0x58#8, 0x59#8, 0x5D#8, 0x5E#8] ++
  [0x60#8, 0x61#8, 0x65#8, 0x66#8, 0x68#8, 0x69#8, 0x6A#8, 0x6C#8, 0x6D#8, 0x6E#8] ++
  [0x70#8, 0x71#8, 0x75#8, 0x76#8, 0x78#8, 0x79#8, 0x7D#8, 0x7E#8] ++
  [0x81#8, 0x84#8, 0x85#8, 0x86#8, 0x88#8, 0x8A#8, 0x8C#8, 0x8D#8, 0x8E#8] ++
  [0x90#8, 0x91#8, 0x94#8, 0x95#8, 0x96#8, 0x98#8, 0x99#8, 0x9A#8, 0x9D#8] ++
  [0xA0#8, 0xA1#8, 0xA2#8, 0xA4#8, 0xA5#8, 0xA6#8, 0xA8#8, 0xA9#8, 0xAA#8, 0xAC#8, 0xAD#8, 0xAE#8] ++
  [0xB0#8, 0xB1#8, 0xB4#8, 0xB5#8, 0xB6#8, 0xB8#8, 0xB9#8, 0xBA#8, 0xBC#8, 0xBD#8, 0xBE#8] ++
  [0xC0#8, 0xC1#8, 0xC4#8, 0xC5#8, 0xC6#8, 0xC8#8, 0xC9#8, 0xCA#8, 0xCC#8, 0xCD#8, 0xCE#8] ++
  [0xD0#8, 0xD1#8, 0xD5#8, 0xD6#8, 0xD8#8, 0xD9#8, 0xDD#8, 0xDE#8] ++
  [0xE0#8, 0xE1#8, 0xE4#8, 0xE5#8, 0xE6#8, 0xE8#8, 0xE9#8, 0xEA#8, 0xEC#8, 0xED#8, 0xEE#8] ++
  [0xF0#8, 0xF1#8, 0xF5#8, 0xF6#8, 0xF8#8, 0xF9#8, 0xFD#8, 0xFE#8]

/-- The registers A, X, Y and S, for frames. -/
inductive Reg where
  | a | x | y | sp
  deriving DecidableEq, Repr

/-- The value of a register. -/
def Cpu.reg (c : Cpu) : Reg → Byte
  | .a => c.a
  | .x => c.x
  | .y => c.y
  | .sp => c.sp

/-- The flags an instruction may write: the table of R27, with the bits PLP and RTI load (R116, R152). -/
def flagsWritten (cfg : Config) (i : Instr) : List Flag :=
  let overflow := if cfg.vFlagMode = .nmos then [.v] else []
  match i with
  | .ldaIzx _ | .ldaZp _ | .ldaImm _ | .ldaAbs _ | .ldaIzy _ | .ldaZpx _ | .ldaAby _ | .ldaAbx _
  | .ldxImm _ | .ldxZp _ | .ldxAbs _ | .ldxZpy _ | .ldxAby _ | .ldyImm _ | .ldyZp _ | .ldyAbs _
  | .ldyZpx _ | .ldyAbx _ | .tax | .tay | .txa | .tya | .tsx | .pla | .andIzx _ | .andZp _
  | .andImm _ | .andAbs _ | .andIzy _ | .andZpx _ | .andAby _ | .andAbx _ | .oraIzx _ | .oraZp _
  | .oraImm _ | .oraAbs _ | .oraIzy _ | .oraZpx _ | .oraAby _ | .oraAbx _ | .eorIzx _ | .eorZp _
  | .eorImm _ | .eorAbs _ | .eorIzy _ | .eorZpx _ | .eorAby _ | .eorAbx _ | .incZp _ | .incAbs _
  | .incZpx _ | .incAbx _ | .decZp _ | .decAbs _ | .decZpx _ | .decAbx _ | .inx | .iny | .dex
  | .dey => [.n, .z]
  | .adcIzx _ | .adcZp _ | .adcImm _ | .adcAbs _ | .adcIzy _ | .adcZpx _ | .adcAby _ | .adcAbx _
  | .sbcIzx _ | .sbcZp _ | .sbcImm _ | .sbcAbs _ | .sbcIzy _ | .sbcZpx _ | .sbcAby _ | .sbcAbx _ => [.n, .z, .c] ++ overflow
  | .cmpIzx _ | .cmpZp _ | .cmpImm _ | .cmpAbs _ | .cmpIzy _ | .cmpZpx _ | .cmpAby _ | .cmpAbx _
  | .cpxImm _ | .cpxZp _ | .cpxAbs _ | .cpyImm _ | .cpyZp _ | .cpyAbs _ | .aslZp _ | .aslAcc
  | .aslAbs _ | .aslZpx _ | .aslAbx _ | .lsrZp _ | .lsrAcc | .lsrAbs _ | .lsrZpx _ | .lsrAbx _
  | .rolZp _ | .rolAcc | .rolAbs _ | .rolZpx _ | .rolAbx _ | .rorZp _ | .rorAcc | .rorAbs _
  | .rorZpx _ | .rorAbx _ => [.n, .z, .c]
  | .bitZp _ | .bitAbs _ => [.n, .z] ++ overflow
  | .clc | .sec => [.c]
  | .cld | .sed => [.d]
  | .brk | .cli | .sei => [.i]
  | .clv => [.v]
  | .plp | .rti => [.n, .v, .bit5, .b, .d, .i, .z, .c]
  | .staIzx _ | .staZp _ | .staAbs _ | .staIzy _ | .staZpx _ | .staAby _ | .staAbx _ | .stxZp _
  | .stxAbs _ | .stxZpy _ | .styZp _ | .styAbs _ | .styZpx _ | .txs | .pha | .php | .bcc _
  | .bcs _ | .beq _ | .bmi _ | .bne _ | .bpl _ | .bvc _ | .bvs _ | .jmpAbs _ | .jmpInd _ | .jsr _
  | .rts | .nop => []

/-- The registers among A, X, Y and S an instruction may write (R15 to R17). -/
def registersWritten (i : Instr) : List Reg :=
  match i with
  | .ldaIzx _ | .ldaZp _ | .ldaImm _ | .ldaAbs _ | .ldaIzy _ | .ldaZpx _ | .ldaAby _ | .ldaAbx _
  | .txa | .tya | .adcIzx _ | .adcZp _ | .adcImm _ | .adcAbs _ | .adcIzy _ | .adcZpx _
  | .adcAby _ | .adcAbx _ | .sbcIzx _ | .sbcZp _ | .sbcImm _ | .sbcAbs _ | .sbcIzy _ | .sbcZpx _
  | .sbcAby _ | .sbcAbx _ | .andIzx _ | .andZp _ | .andImm _ | .andAbs _ | .andIzy _ | .andZpx _
  | .andAby _ | .andAbx _ | .oraIzx _ | .oraZp _ | .oraImm _ | .oraAbs _ | .oraIzy _ | .oraZpx _
  | .oraAby _ | .oraAbx _ | .eorIzx _ | .eorZp _ | .eorImm _ | .eorAbs _ | .eorIzy _ | .eorZpx _
  | .eorAby _ | .eorAbx _ | .aslAcc | .lsrAcc | .rolAcc | .rorAcc => [.a]
  | .ldxImm _ | .ldxZp _ | .ldxAbs _ | .ldxZpy _ | .ldxAby _ | .tax | .tsx | .inx | .dex => [.x]
  | .ldyImm _ | .ldyZp _ | .ldyAbs _ | .ldyZpx _ | .ldyAbx _ | .tay | .iny | .dey => [.y]
  | .pla => [.a, .sp]
  | .txs | .pha | .php | .plp | .jsr _ | .rts | .brk | .rti => [.sp]
  | .staIzx _ | .staZp _ | .staAbs _ | .staIzy _ | .staZpx _ | .staAby _ | .staAbx _ | .stxZp _
  | .stxAbs _ | .stxZpy _ | .styZp _ | .styAbs _ | .styZpx _ | .cmpIzx _ | .cmpZp _ | .cmpImm _
  | .cmpAbs _ | .cmpIzy _ | .cmpZpx _ | .cmpAby _ | .cmpAbx _ | .cpxImm _ | .cpxZp _ | .cpxAbs _
  | .cpyImm _ | .cpyZp _ | .cpyAbs _ | .bitZp _ | .bitAbs _ | .incZp _ | .incAbs _ | .incZpx _
  | .incAbx _ | .decZp _ | .decAbs _ | .decZpx _ | .decAbx _ | .aslZp _ | .aslAbs _ | .aslZpx _
  | .aslAbx _ | .lsrZp _ | .lsrAbs _ | .lsrZpx _ | .lsrAbx _ | .rolZp _ | .rolAbs _ | .rolZpx _
  | .rolAbx _ | .rorZp _ | .rorAbs _ | .rorZpx _ | .rorAbx _ | .bcc _ | .bcs _ | .beq _ | .bmi _
  | .bne _ | .bpl _ | .bvc _ | .bvs _ | .jmpAbs _ | .jmpInd _ | .nop | .clc | .sec | .cli | .sei
  | .cld | .sed | .clv => []

end Sys2Proof.Machine
end

