-- ==== Sys2Proof/Certificates/Slice0/Obligations.lean ====
section
/-! DEFINITION. The statements about the model, from the numbered rules of spec/. -/

open Sys2Proof Sys2Proof.Machine

/-! ## Encoding -/

/-- Words written out from the tables of 40_load_store.md to 45_flags.md, one or more per family, decode to
the instructions they stand for, and 0x02, which R92 marks with a dot, decodes to none. -/
def Obligations.WrittenOutWordsDecode : Prop :=
  decode [0xA9#8, 0x2C#8] = .ok (.ldaImm 0x2C#8, []) ∧
  decode [0xB6#8, 0xFF#8] = .ok (.ldxZpy 0xFF#8, []) ∧
  decode [0x8D#8, 0x07#8, 0x20#8] = .ok (.staAbs 0x2007#16, []) ∧
  decode [0x91#8, 0x10#8] = .ok (.staIzy 0x10#8, []) ∧
  decode [0x9A#8] = .ok (.txs, []) ∧
  decode [0x48#8] = .ok (.pha, []) ∧
  decode [0x61#8, 0x80#8] = .ok (.adcIzx 0x80#8, []) ∧
  decode [0xF9#8, 0x34#8, 0x12#8] = .ok (.sbcAby 0x1234#16, []) ∧
  decode [0x2C#8, 0x02#8, 0x20#8] = .ok (.bitAbs 0x2002#16, []) ∧
  decode [0xFE#8, 0x34#8, 0x12#8] = .ok (.incAbx 0x1234#16, []) ∧
  decode [0x6A#8] = .ok (.rorAcc, []) ∧
  decode [0xD0#8, 0xFE#8] = .ok (.bne 0xFE#8, []) ∧
  decode [0x6C#8, 0xFF#8, 0x10#8] = .ok (.jmpInd 0x10FF#16, []) ∧
  decode [0x20#8, 0x20#8, 0x80#8, 0xEA#8] = .ok (.jsr 0x8020#16, [0xEA#8]) ∧
  decode [0x00#8] = .ok (.brk, []) ∧
  decode [0xF8#8] = .ok (.sed, []) ∧
  decode [0x02#8] = .error (.unknownOpcode 0x02#8)

/-- R92, R93: the decoder has a row for exactly the 151 opcodes of the map of R92. -/
def Obligations.OpcodeMapHasExactlyTheDocumentedRows : Prop :=
  documentedOpcodes.length = 151 ∧ documentedOpcodes.Nodup ∧
  (opcodeTable.map Row.opcode).Nodup ∧
  ∀ op : Byte, (rowOf op).isSome = documentedOpcodes.contains op

/-- Decoding the bytes of any instruction, with any operand and whatever bytes follow, gives that
instruction back and leaves the bytes that follow. -/
def Obligations.DecodeOfEncode : Prop :=
  ∀ (i : Instr) (rest : List Byte), decode (encode i ++ rest) = .ok (i, rest)

/-- Whatever the decoder reads is the encoding of what it answers: no byte has a second meaning. -/
def Obligations.EncodeOfDecode : Prop :=
  ∀ (bytes rest : List Byte) (i : Instr), decode bytes = .ok (i, rest) → encode i ++ rest = bytes

/-! ## The step -/

/-- R97, R174: when the bytes at PC decode to an instruction that the configuration admits, a step of a
running core is that instruction's meaning in the state the fetch reads leave, then the PPU update with the
cycles it reported, then the interrupt poll. The fetch changes no register, no PPU counter, no interrupt
and no parameter. -/
def Obligations.StepRunsDecodedInstruction : Prop :=
  ∀ (s t : State) (i : Instr) (bytes : List Byte), Running s →
    readBytes bytes.length s.cpu.pc s = .ok bytes t → decode bytes = .ok (i, []) →
    i.wellFormed s.cfg = true →
    AccessFrame s t ∧
    step s = match exec i t with
      | .next u => poll (ppuUpdate u.cycles u)
      | .fault f => .fault f
      | .refused r => .refused r

/-- R71, R59: bytes fetched from RAM or the PRG window are the bytes there, and fetching them has no
effect. -/
def Obligations.CodeInRamOrPrgIsFetchedWithoutEffect : Prop :=
  ∀ (s : State) (n : Nat) (a : Word),
    (∀ k, k < n → (a + BitVec.ofNat 16 k).toNat < 0x2000 ∨ 0x8000 ≤ (a + BitVec.ofNat 16 k).toNat) →
    readBytes n a s = .ok ((List.range n).map fun k =>
      if (a + BitVec.ofNat 16 k).toNat < 0x2000
      then Memory.read s.ram ((a + BitVec.ofNat 16 k).toNat % 0x0800)
      else Memory.read s.cart.prg (((a + BitVec.ofNat 16 k).toNat - 0x8000) % s.cart.banks.size)) s

/-- R163, R93: an opcode byte outside `OPCODE_SET` faults, with the opcode fetch's own effect kept, no
operand byte read and no register changed. -/
def Obligations.UnknownOpcodeFaults : Prop :=
  ∀ (s t : State) (op : Byte), Running s → read8 s.cpu.pc s = .ok op t →
    (documentedOpcodes.contains op = false ∨ op ∈ s.cfg.opcodesRemoved) →
    step s = .fault (faultOf (.unknownOpcode s.cpu.pc op) s t)

/-- R100 items 1 and 3: a fetch from an unmapped address faults with that address, after the fetch reads
before it. -/
def Obligations.FetchFromUnmappedFaults : Prop :=
  ∀ s : State, Running s →
    (Unmapped s.cpu.pc → step s = .fault (faultOf (.addressOutOfRange s.cpu.pc .read) s s)) ∧
    ∀ (op : Byte) (t : State) (row : Row), read8 s.cpu.pc s = .ok op t →
      admittedRow s.cfg op = some row →
      (2 ≤ formatLength row.format → Unmapped (s.cpu.pc + 1#16) →
        step s = .fault (faultOf (.addressOutOfRange (s.cpu.pc + 1#16) .read) s t)) ∧
      ∀ (b : Byte) (u : State), formatLength row.format = 3 → read8 (s.cpu.pc + 1#16) t = .ok b u →
        Unmapped (s.cpu.pc + 2#16) →
        step s = .fault (faultOf (.addressOutOfRange (s.cpu.pc + 2#16) .read) s u)

/-- R13, R161 to R163: a step never refuses, and a running core faults only on an unmapped address, on a
write to the PRG window under `ROM_WRITE_MODE = fault`, or on an opcode byte that it read at its PC and
that lies outside `OPCODE_SET`. -/
def Obligations.StepStopsOnlyForTheSpecsCauses : Prop :=
  ∀ s : State, (∀ r, step s ≠ .refused r) ∧ (Running s →
    (∀ a left, step s = .fault (.addressOutOfRange a .read left) → Unmapped a) ∧
    (∀ a left, step s = .fault (.addressOutOfRange a .write left) →
      Unmapped a ∨ (0x8000 ≤ a.toNat ∧ s.cfg.romWriteMode = .fault)) ∧
    (∀ pc op left, step s = .fault (.unknownOpcode pc op left) →
      pc = s.cpu.pc ∧ (∃ t, read8 s.cpu.pc s = .ok op t) ∧
        (documentedOpcodes.contains op = false ∨ op ∈ s.cfg.opcodesRemoved)))

/-- R164 items 1, 3 and 4: the state a fault leaves holds the record, the registers from before the step,
the interrupt slot and the PPU counters of before the step, and no cycles. -/
def Obligations.FaultKeepsRegistersAndTime : Prop :=
  ∀ (s : State) (f : Fault), Running s → step s = .fault f →
    (faultState f).fault = some (faultRecord f) ∧ (faultState f).cpu = s.cpu ∧
    (faultState f).pending = s.pending ∧ (faultState f).timing = s.timing ∧
    (faultState f).cycles = 0 ∧ (faultState f).paused = false ∧
    (faultState f).cart = s.cart ∧ (faultState f).cfg = s.cfg

/-- R164 item 6: a core with a recorded fault runs no step again: `run` returns at once, and a step reports
the same fault from the same state (log 11). -/
def Obligations.FaultedCoreStaysHalted : Prop :=
  ∀ (s : State) (r : FaultRecord), s.fault = some r →
    step s = .fault (raise r s) ∧
    ∀ budget, run budget s = { consumed := 0, fault := some r, state := s }

/-- R36, R52, R30, R29: a step that goes on never changes the cartridge, a parameter or the pause flag, and
records no fault. -/
def Obligations.StepKeepsCartridgeAndParameters : Prop :=
  ∀ s t : State, Running s → step s = .next t →
    t.cart = s.cart ∧ t.cfg = s.cfg ∧ t.paused = false ∧ t.fault = none

/-! ## The run loop -/

/-- R174: `run(0)` and `run(1)` of a running core execute exactly one iteration. -/
def Obligations.RunZeroAndOneAreOneStep : Prop :=
  ∀ (s : State) (budget : Nat), Running s → budget ≤ 1 →
    (∀ t, step s = .next t →
      run budget s = { consumed := t.cycles, fault := none, state := t }) ∧
    (∀ f, step s = .fault f →
      run budget s = { consumed := 0, fault := some (faultRecord f), state := faultState f })

/-- R174, R99, R170: a step reports at least 2 cycles and at most 7, plus one OAM DMA and one interrupt
service; so `run` ends only by a fault or with the budget exceeded, and exceeds it by no more than its last
iteration. -/
def Obligations.RunEndsJustPastItsBudget : Prop :=
  ∀ (s : State) (budget : Nat), Running s →
    let most := 7 + s.cfg.dmaCycles + s.cfg.intCycles
    let r := run budget s
    (∀ t, step s = .next t → 2 ≤ t.cycles ∧ t.cycles ≤ most) ∧
    (r.fault ≠ none ∨ budget < r.consumed) ∧ r.consumed ≤ budget + most

/-- R175: pause and resume write the pause flag and nothing else, and `run` of a paused core returns at
once with nothing consumed. -/
def Obligations.PausedRunReturnsAtOnce : Prop :=
  ∀ s : State, pause s = { s with paused := true } ∧ resume s = { s with paused := false } ∧
    ∀ budget, run budget (pause s) = { consumed := 0, fault := s.fault, state := pause s }

/-! ## The invariant -/

/-- From every state that meets the invariant (memories canonical and in their sizes, PPU counters in range
and in step with each other, bits 4 and 5 of P as `B_FLAG_MODE` says, LINE_DOTS at least 341), a step that
goes on gives a state that meets it, and so is the state a fault leaves. -/
def Obligations.StepKeepsInvariant : Prop :=
  ∀ s : State, Inv s →
    (∀ t, step s = .next t → Inv t) ∧ (∀ f, step s = .fault f → Inv (faultState f))

/-- The reset state meets the invariant. It is the power-on state (R197 to R199) for launch inputs that the
model chose: the NES register values (log 4), memories of zeros (log 5), a blank one-bank cartridge
(log 6). -/
def Obligations.ResetMeetsInvariant : Prop :=
  Inv State.reset ∧ State.reset = powerOn Config.default Launch.zero Cartridge.blank

/-- So does the power-on state of every accepted cartridge image, for launch inputs that are arrays of
their sizes. -/
def Obligations.PowerOnMeetsInvariant : Prop :=
  ∀ (cfg : Config) (l : Launch) (img : List Byte) (s : State), Config.wf cfg → Launch.wf l →
    launch cfg l img = .next s → Inv s

/-! ## The CPU bus -/

/-- R53, R45, R49, R51: what `Read8` returns and leaves, for every address of the decode map. -/
def Obligations.ReadFollowsTheDecodeMap : Prop :=
  ∀ (s : State) (a : Word),
    (a.toNat < 0x2000 → read8 a s = .ok (Memory.read s.ram (a.toNat % 0x0800)) s) ∧
    (0x2000 ≤ a.toNat → a.toNat < 0x2008 → a ≠ 0x2002#16 → a ≠ 0x2007#16 →
      read8 a s = .ok (Memory.read s.ppuReg (a.toNat - 0x2000)) s) ∧
    (a = 0x2002#16 → read8 a s = .ok (Memory.read s.ppuReg 2) (onRead2002 s)) ∧
    (a = 0x2007#16 →
      read8 a s = .ok (Memory.read s.ppuReg 7) (onRead2007 (Memory.read s.ppuReg 7) s)) ∧
    (0x4000 ≤ a.toNat → a.toNat < 0x4020 →
      read8 a s = .ok (Config.ioRead s.ioSeq a) { s with ioSeq := s.ioSeq + 1 }) ∧
    (0x8000 ≤ a.toNat →
      read8 a s = .ok (Memory.read s.cart.prg ((a.toNat - 0x8000) % s.cart.banks.size)) s) ∧
    (Unmapped a → read8 a s = .err (.addressOutOfRange a .read) s)

/-- R54, R49, R52: what `Write8` does, for every address of the decode map. -/
def Obligations.WriteFollowsTheDecodeMap : Prop :=
  ∀ (s : State) (a : Word) (v : Byte),
    let cell := { s with ppuReg := Memory.write s.ppuReg (a.toNat - 0x2000) v }
    (a.toNat < 0x2000 →
      write8 a v s = .ok () { s with ram := Memory.write s.ram (a.toNat % 0x0800) v }) ∧
    (a = 0x2000#16 → write8 a v s = .ok () (onWrite2000 v cell)) ∧
    (a = 0x2001#16 → write8 a v s = .ok () (onWrite2001 v cell)) ∧
    (a = 0x2002#16 ∨ a = 0x2005#16 → write8 a v s = .ok () cell) ∧
    (a = 0x2003#16 → write8 a v s = .ok () (onWrite2003 v cell)) ∧
    (a = 0x2004#16 → write8 a v s = .ok () (onWrite2004 v cell)) ∧
    (a = 0x2006#16 → write8 a v s = .ok () (onWrite2006 v cell)) ∧
    (a = 0x2007#16 → write8 a v s = .ok () (onWrite2007 v cell)) ∧
    (0x4000 ≤ a.toNat → a.toNat < 0x4020 → a ≠ 0x4014#16 → write8 a v s = .ok () s) ∧
    (a = 0x4014#16 → write8 a v s = onWrite4014 v s) ∧
    (0x8000 ≤ a.toNat → write8 a v s =
      match s.cfg.romWriteMode with
      | .fault => .err (.addressOutOfRange a .write) s
      | .ignore => .ok () s) ∧
    (Unmapped a → write8 a v s = .err (.addressOutOfRange a .write) s)

/-- R46, R41: four 2 KiB copies joined by the twelve mirror rules, one hop each, hold what the single array
indexed by `a & 0x07FF` holds, after every write as before it; so a byte stored at a RAM address is read
back at every address of its cell, and every other RAM address reads as before. -/
def Obligations.FourMirroredCopiesAreOneArray : Prop :=
  (∀ (one four : Memory) (a : Nat) (v : Byte), Memory.wf one → Memory.wf four → a < 0x2000 →
    (∀ b, b < 0x2000 → Memory.read four b = Memory.read one (b % 0x0800)) →
    ∀ b, b < 0x2000 →
      Memory.read (mirroredWrite ramMirrorRules four a v) b =
        Memory.read (Memory.write one (a % 0x0800) v) (b % 0x0800)) ∧
  ∀ (s : State) (a b : Word) (v : Byte), Memory.wf s.ram → a.toNat < 0x2000 → b.toNat < 0x2000 →
    ∃ t, write8 a v s = .ok () t ∧
      read8 b t = .ok (if a.toNat % 0x0800 = b.toNat % 0x0800 then v
        else Memory.read s.ram (b.toNat % 0x0800)) t

/-- R57, R17: the stack primitives, in page 1 with S wrapping mod 256; none can fault. -/
def Obligations.StackPrimitives : Prop :=
  ∀ (s : State) (v : Byte) (w : Word),
    let sp := s.cpu.sp
    push v s = .ok () { s with
      ram := Memory.write s.ram (0x0100 + sp.toNat) v, cpu := { s.cpu with sp := sp - 1#8 } } ∧
    pull s = .ok (Memory.read s.ram (0x0100 + (sp.toNat + 1) % 256))
      { s with cpu := { s.cpu with sp := sp + 1#8 } } ∧
    push16 w s = .ok () { s with
      ram := Memory.write (Memory.write s.ram (0x0100 + sp.toNat) (w.extractLsb' 8 8))
        (0x0100 + (sp.toNat + 255) % 256) (w.extractLsb' 0 8)
      cpu := { s.cpu with sp := sp - 2#8 } } ∧
    pull16 s = .ok (BitVec.ofNat 16
        ((Memory.read s.ram (0x0100 + (sp.toNat + 2) % 256)).toNat * 256 +
          (Memory.read s.ram (0x0100 + (sp.toNat + 1) % 256)).toNat))
      { s with cpu := { s.cpu with sp := sp + 2#8 } }

/-- R81 to R88: the effective address of every memory mode, and its page crossing. -/
def Obligations.EffectiveAddresses : Prop :=
  ∀ (s : State) (n : Byte) (nn : Word),
    let x := s.cpu.x.toNat
    let y := s.cpu.y.toNat
    let zp := fun k => (Memory.read s.ram (k % 256)).toNat
    let word := fun k => zp k + 256 * zp (k + 1)
    let indexedBy := fun (base i : Nat) => ({
      addr := BitVec.ofNat 16 (base + i)
      crossed := decide ((base + i) % 65536 / 256 ≠ base / 256) } : EffAddr)
    (∀ p, effAddr p s = .ok (placeEff p s) s) ∧
    placeEff (.zp n) s = { addr := BitVec.ofNat 16 n.toNat, crossed := false } ∧
    placeEff (.zpx n) s = { addr := BitVec.ofNat 16 ((n.toNat + x) % 256), crossed := false } ∧
    placeEff (.zpy n) s = { addr := BitVec.ofNat 16 ((n.toNat + y) % 256), crossed := false } ∧
    placeEff (.abs nn) s = { addr := nn, crossed := false } ∧
    placeEff (.abx nn) s = indexedBy nn.toNat x ∧
    placeEff (.aby nn) s = indexedBy nn.toNat y ∧
    placeEff (.izx n) s = { addr := BitVec.ofNat 16 (word (n.toNat + x)), crossed := false } ∧
    placeEff (.izy n) s = indexedBy (word n.toNat) y

/-- R177: `peek` shows the byte a read of a storage or PRG address would return, nothing for the I/O
region, and out of range for an unmapped address. -/
def Obligations.PeekShowsWhatReadReturns : Prop :=
  ∀ (s : State) (a : Word),
    (0x4000 ≤ a.toNat ∧ a.toNat < 0x4020 → peek a s = .nothing) ∧
    (Unmapped a → peek a s = .outOfRange a) ∧
    (¬Unmapped a → ¬(0x4000 ≤ a.toNat ∧ a.toNat < 0x4020) →
      ∃ v t, read8 a s = .ok v t ∧ peek a s = .byte v)

/-! ## VRAM, OAM and the register bridge -/

/-- R63 to R65: a VRAM write is seen at the cells of its mirror class and nowhere else: the 16 KiB image and
its copy at 0x4000, the palette repeated over 0x3F00 to 0x3FFF with its four shared entries, and no mirror
from 0x8000 on. -/
def Obligations.VramWriteReachesItsMirrorClass : Prop :=
  ∀ (s : State) (a b : Word) (v : Byte), Memory.wf s.vram →
    vramRead b (vramWrite a v s) =
      if SameVram a.toNat b.toNat then v else vramRead b s

/-- R186, R187, R192, R193: what a write to the control, mask and sprite ports does; a read of 0x2004 returns
its cell. -/
def Obligations.ControlMaskAndSpritePorts : Prop :=
  ∀ (s : State) (v : Byte),
    write8 0x2000#16 v s = .ok () { s with
      ppuReg := Memory.write s.ppuReg 0 v
      control := {
        nametable := BitVec.ofNat 2 (v.toNat % 4)
        increment := if v.toNat / 4 % 2 = 1 then .by32 else .by1
        spriteBase := if v.toNat / 8 % 2 = 1 then .at1000 else .at0000
        bgBase := if v.toNat / 16 % 2 = 1 then .at1000 else .at0000
        spriteSize := if v.toNat / 32 % 2 = 1 then .size8x16 else .size8x8
        nmiEnable := decide (128 ≤ v.toNat)
        monochrome := s.control.monochrome } } ∧
    write8 0x2001#16 v s = .ok () { s with
      ppuReg := Memory.write s.ppuReg 1 v
      control := { s.control with monochrome := decide (v.toNat % 2 = 1) } } ∧
    write8 0x2003#16 v s = .ok () { s with
      ppuReg := Memory.write s.ppuReg 3 v
      cursors := { s.cursors with oamCursor := v } } ∧
    write8 0x2004#16 v s = .ok () { s with
      ppuReg := Memory.write s.ppuReg 4 v
      oam := Memory.write s.oam s.cursors.oamCursor.toNat v
      cursors := { s.cursors with oamCursor := s.cursors.oamCursor + 1#8 } } ∧
    read8 0x2004#16 s = .ok (Memory.read s.ppuReg 4) s

/-- R188: a read of 0x2002 returns the status byte as it was, clears bit 7 of the cell and resets the
latch; the next read sees bit 7 clear. -/
def Obligations.StatusRead : Prop :=
  ∀ s : State, Memory.wf s.ppuReg →
    let v := Memory.read s.ppuReg 2
    let t := { s with
      ppuReg := Memory.write s.ppuReg 2 (BitVec.ofNat 8 (v.toNat % 128))
      cursors := { s.cursors with latchHi := 0x00#8, latchLo := 0x00#8, latchNext := .high } }
    read8 0x2002#16 s = .ok v t ∧
    ∃ u, read8 0x2002#16 t = .ok (BitVec.ofNat 8 (v.toNat % 128)) u

/-- R188 to R190: after a status read, two writes to 0x2006 and one to 0x2007 store the byte at the address
just latched, whatever the latch held before, and advance the pointer from there. -/
def Obligations.WriteAfterStatusReadLandsAtTheLatchedAddress : Prop :=
  ∀ (s : State) (hi lo v : Byte), Memory.wf s.vram →
    ∃ b t1 t2 t3 t4, read8 0x2002#16 s = .ok b t1 ∧ write8 0x2006#16 hi t1 = .ok () t2 ∧
      write8 0x2006#16 lo t2 = .ok () t3 ∧ write8 0x2007#16 v t3 = .ok () t4 ∧
      t2.cursors.vramPtr = s.cursors.vramPtr ∧
      vramRead (joinBytes hi lo) t4 = v ∧
      t4.cursors.vramPtr =
        joinBytes hi lo + (match s.control.increment with | .by1 => 1#16 | .by32 => 32#16)

/-- R189 to R191: the address latch and the data port, in both `PPUDATA_READ_MODE`s. -/
def Obligations.LatchAndDataPort : Prop :=
  ∀ (s : State) (v : Byte),
    let inc : Word := match s.control.increment with | .by1 => 1#16 | .by32 => 32#16
    let w := { s with ppuReg := Memory.write s.ppuReg 6 v }
    let p := s.cursors.vramPtr
    (s.cursors.latchNext = .high → write8 0x2006#16 v s = .ok () { w with
      cursors := { s.cursors with latchHi := v, latchNext := .low } }) ∧
    (s.cursors.latchNext = .low → write8 0x2006#16 v s = .ok () { w with
      cursors := { s.cursors with
        latchLo := v, latchNext := .high
        vramPtr := BitVec.ofNat 16 (s.cursors.latchHi.toNat * 256 + v.toNat) } }) ∧
    write8 0x2007#16 v s = .ok () { s with
      ppuReg := Memory.write s.ppuReg 7 v
      vram := (vramWrite p v s).vram
      cursors := { s.cursors with vramPtr := p + inc } } ∧
    (s.cfg.ppuDataReadMode = .literal →
      read8 0x2007#16 s = .ok (Memory.read s.ppuReg 7) { s with
        vram := (vramWrite p (Memory.read s.ppuReg 7) s).vram
        cursors := { s.cursors with vramPtr := p + inc } }) ∧
    (s.cfg.ppuDataReadMode = .buffered →
      read8 0x2007#16 s = .ok (Memory.read s.ppuReg 7) { s with
        ppuReg := Memory.write s.ppuReg 7 (Memory.read s.vram p.toNat)
        cursors := { s.cursors with vramPtr := p + inc } })

/-- R194, R164: an OAM DMA from a page of RAM, its mirrors or PRG fills OAM in order with the 256 bytes of
the page and changes nothing else. From page 0x20 it copies the eight register cells, with no observer run,
and faults at 0x2008; from page 0x40 it copies 32 draws and faults at 0x4020; from another unmapped page it
faults at its first byte. -/
def Obligations.OamDma : Prop :=
  ∀ (s : State) (v : Byte), Memory.wf s.oam →
    ((v.toNat < 0x20 ∨ 0x80 ≤ v.toNat) →
      ∃ t, write8 0x4014#16 v s = .ok () t ∧ t = { s with oam := t.oam } ∧
        ∀ i, i < 256 → Memory.read t.oam i =
          if v.toNat < 0x20 then Memory.read s.ram ((v.toNat * 256 + i) % 0x0800)
          else Memory.read s.cart.prg ((v.toNat * 256 + i - 0x8000) % s.cart.banks.size)) ∧
    (v = 0x20#8 → ∃ t, t = { s with oam := t.oam } ∧
      write8 0x4014#16 v s = .err (.addressOutOfRange 0x2008#16 .read) t ∧
      ∀ i, Memory.read t.oam i =
        if i < 8 then Memory.read s.ppuReg i else Memory.read s.oam i) ∧
    (v = 0x40#8 → ∃ t, t = { s with oam := t.oam, ioSeq := s.ioSeq + 32 } ∧
      write8 0x4014#16 v s = .err (.addressOutOfRange 0x4020#16 .read) t ∧
      ∀ i, Memory.read t.oam i =
        if i < 32 then Config.ioRead (s.ioSeq + i) (0x4000#16 + BitVec.ofNat 16 i)
        else Memory.read s.oam i) ∧
    (0x20 < v.toNat → v.toNat < 0x80 → v ≠ 0x40#8 →
      write8 0x4014#16 v s = .err (.addressOutOfRange (joinBytes v 0x00#8) .read) s)

/-! ## The PPU timing machine -/

/-- R181 to R183: where `n` dots take the PPU counters: the frame counter advances mod the frame, and the
scanline, the dot of the line and the fetch phase are those of that position. -/
def Obligations.DotsAdvanceTheCounters : Prop :=
  ∀ (s : State) (n : Nat), Config.wf s.cfg → TimingOk s.cfg.lineDots s.timing →
    let f := (s.timing.frameDots + n) % (262 * s.cfg.lineDots)
    (ppuDots n s).timing = {
      frameDots := f
      lineDots := f % s.cfg.lineDots
      scanline := f / s.cfg.lineDots
      phase := phaseAt (f / s.cfg.lineDots) (f % s.cfg.lineDots) }

/-- R182, R184, R179: dots change nothing but the counters, bit 7 of the status cell and the interrupt slot.
The last two change exactly when the frame counter crosses its threshold: the bit is set, and NMI is
requested if it is enabled. -/
def Obligations.VblankIsRaisedAtTheThreshold : Prop :=
  ∀ (s : State) (n : Nat), Config.wf s.cfg → Memory.wf s.ppuReg →
    s.timing.frameDots < 262 * s.cfg.lineDots →
    let status := Memory.write s.ppuReg 2 (Memory.read s.ppuReg 2 ||| 0x80#8)
    ppuDots n s =
      if s.timing.frameDots + n < 262 * s.cfg.lineDots then
        { s with timing := (ppuDots n s).timing }
      else
        { s with
          timing := (ppuDots n s).timing
          ppuReg := status
          pending := if s.control.nmiEnable then upgrade .nmi s.pending else s.pending }

/-- R184: from the start of a frame, 262 × 114 CPU cycles reach the threshold, and fewer than two of its
periods, for LINE_DOTS 341 and 342: the vblank bit is set, and the frame counter is where the excess
leaves it. -/
def Obligations.OneFrameOfCyclesRaisesVblankOnce : Prop :=
  ∀ s : State, Inv s → (s.cfg.lineDots = 341 ∨ s.cfg.lineDots = 342) → s.timing.frameDots = 0 →
    let t := ppuUpdate (262 * 114) s
    (Memory.read t.ppuReg 2).getLsbD 7 = true ∧
    t.timing.frameDots = 3 * (262 * 114) - 262 * s.cfg.lineDots

/-! ## Interrupts -/

/-- R167 to R169: requests only ever upgrade the slot, with priority RESET, NMI, IRQ; and a poll with nothing
pending or with the gate closed changes nothing: the gate is I = 0 for every kind, or, under
`INT_MODE = nmos`, for IRQ alone. -/
def Obligations.RequestsUpgradeAndWait : Prop :=
  ∀ (s : State) (k : Interrupt),
    (s.pending = none → requestInterrupt k s = { s with pending := some k }) ∧
    (s.pending = some .irq → k = .reset ∨ k = .nmi →
      requestInterrupt k s = { s with pending := some k }) ∧
    (s.pending = some .nmi → k = .reset → requestInterrupt k s = { s with pending := some k }) ∧
    (s.pending = some k → requestInterrupt k s = s) ∧
    (s.pending = some .nmi → k = .irq → requestInterrupt k s = s) ∧
    (s.pending = some .reset → requestInterrupt k s = s) ∧
    (s.pending = none → poll s = .next s) ∧
    (s.pending = some k → getFlag .i s.cpu.p = true →
      s.cfg.intMode = .gatedAll ∨ k = .irq → poll s = .next s)

/-- R169, R170, R171, R174: a poll with an open gate enters the handler: return address and status on the
stack, I set, PC from the kind's vector, the slot cleared, `INT_CYCLES` more cycles, and the PPU advanced by
them. Under `INT_MODE = nmos` RESET is served whatever I is, lowers S by 3 and writes no stack byte (R201:
and changes nothing else). -/
def Obligations.InterruptServiceEntersTheHandler : Prop :=
  (∀ (s : State) (k : Interrupt), s.pending = some k →
    (getFlag .i s.cpu.p = false ∨ (s.cfg.intMode = .nmos ∧ k ≠ .irq)) →
    ¬(s.cfg.intMode = .nmos ∧ k = .reset) →
    let sp := s.cpu.sp
    let ret := s.cpu.pc - s.cfg.returnOffset
    let status := match s.cfg.bFlagMode with
      | .absent => s.cpu.p
      | .nmos => s.cpu.p &&& 0xEF#8 ||| 0x20#8
    let vector : Word := match k with | .nmi => 0xFFFA#16 | .reset => 0xFFFC#16 | .irq => 0xFFFE#16
    poll s = .next (ppuUpdate s.cfg.intCycles { s with
      ram := pushed (pushed (pushed s.ram sp (highByte ret)) (sp - 1#8) (lowByte ret)) (sp - 2#8) status
      cpu := { s.cpu with
        sp := sp - 3#8, p := s.cpu.p ||| 0x04#8, pc := prgWord s.cart vector }
      pending := none
      cycles := s.cycles + s.cfg.intCycles })) ∧
  ∀ s : State, s.cfg.intMode = .nmos → s.pending = some .reset →
    poll s = .next (ppuUpdate s.cfg.intCycles { s with
      cpu := { s.cpu with
        sp := s.cpu.sp - 3#8, p := s.cpu.p ||| 0x04#8, pc := prgWord s.cart 0xFFFC#16 }
      pending := none
      cycles := s.cycles + s.cfg.intCycles })

/-- R172, R152, R149, R150: RTI right after an interrupt entry, with `RETURN_OFFSET = 0`, puts the registers
back as they were, I included; RTS right after JSR resumes past the JSR with the other registers as they
were. -/
def Obligations.ReturnsUndoEntries : Prop :=
  ∀ s : State, Memory.wf s.ram →
    (∀ k : Interrupt, StatusOk s.cfg s.cpu.p → s.cfg.returnOffset = 0x0000#16 →
      ¬(s.cfg.intMode = .nmos ∧ k = .reset) →
      ∃ t u, service k s = .ok () t ∧ exec .rti t = .next u ∧ u.cpu = s.cpu) ∧
    ∀ nn : Word, ∃ t u, exec (.jsr nn) s = .next t ∧ exec .rts t = .next u ∧
      u.cpu = { s.cpu with pc := s.cpu.pc + 3#16 }

/-! ## Flags and arithmetic -/

/-- R11, R19, R21, R26: C, Z, I, D, B, the unnamed bit 5, V and N are bits 0 to 7 of P in that order,
independent of each other and together all of P, and `setNZ` writes Z and N from a result and no other
bit. -/
def Obligations.StatusBitsAreIndependent : Prop :=
  (∀ p : Byte, getFlag .c p = p.getLsbD 0 ∧ getFlag .z p = p.getLsbD 1 ∧ getFlag .i p = p.getLsbD 2 ∧
    getFlag .d p = p.getLsbD 3 ∧ getFlag .b p = p.getLsbD 4 ∧ getFlag .bit5 p = p.getLsbD 5 ∧
    getFlag .v p = p.getLsbD 6 ∧ getFlag .n p = p.getLsbD 7) ∧
  (∀ (f g : Flag) (b : Bool) (p : Byte),
    getFlag g (setFlag f b p) = if f = g then b else getFlag g p) ∧
  (∀ p q : Byte, (∀ f, getFlag f p = getFlag f q) → p = q) ∧
  (∀ v p : Byte, getFlag .z (setNZ v p) = decide (v.toNat = 0) ∧
    getFlag .n (setNZ v p) = decide (0x7F < v.toNat) ∧
    ∀ f, f ≠ .z → f ≠ .n → getFlag f (setNZ v p) = getFlag f p)

/-- R117, R119, R23, R25: the binary sum and difference: the result mod 256, C the carry out or no-borrow,
Z and N of the result, V the signed overflow under `V_FLAG_MODE = nmos` and untouched under `absent`, every
other bit untouched; and D plays no part under `DECIMAL_MODE = off`. -/
def Obligations.BinaryAddAndSubtract : Prop :=
  ∀ (cfg : Config) (a m p : Byte), (cfg.decimalMode = .off ∨ getFlag .d p = false) →
    let c := if getFlag .c p then 1 else 0
    let sum := adcAlu cfg a m p
    let dif := sbcAlu cfg a m p
    (sum.1.toNat = (a.toNat + m.toNat + c) % 256 ∧
      getFlag .c sum.2 = decide (256 ≤ a.toNat + m.toNat + c) ∧
      getFlag .z sum.2 = decide (sum.1.toNat = 0) ∧
      getFlag .n sum.2 = decide (128 ≤ sum.1.toNat) ∧
      getFlag .v sum.2 = (match cfg.vFlagMode with
        | .absent => getFlag .v p
        | .nmos => decide (a.toInt + m.toInt + c < -128 ∨ 127 < a.toInt + m.toInt + c)) ∧
      ∀ f, f ≠ .c → f ≠ .z → f ≠ .n → f ≠ .v → getFlag f sum.2 = getFlag f p) ∧
    ((dif.1.toNat : Int) = ((a.toNat : Int) - m.toNat - (1 - c)) % 256 ∧
      getFlag .c dif.2 = decide (m.toNat + (1 - c) ≤ a.toNat) ∧
      getFlag .z dif.2 = decide (dif.1.toNat = 0) ∧
      getFlag .n dif.2 = decide (128 ≤ dif.1.toNat) ∧
      getFlag .v dif.2 = (match cfg.vFlagMode with
        | .absent => getFlag .v p
        | .nmos => decide (a.toInt - m.toInt - (1 - c) < -128 ∨ 127 < a.toInt - m.toInt - (1 - c))) ∧
      ∀ f, f ≠ .c → f ≠ .z → f ≠ .n → f ≠ .v → getFlag f dif.2 = getFlag f p)

/-- R118, R120: the result of decimal ADC and SBC for every byte pair, decimal or not, worked out on the
two digits as numbers; the flags of ADC, where C comes from that number, Z from the binary sum, N and V
from the signed one, and every other bit is untouched; and those of SBC, which are all the binary
difference's, in the words of `BinaryAddAndSubtract`. On two-digit decimal operands the results are the
decimal sum and difference mod 100, with C the decimal carry and no-borrow. -/
def Obligations.DecimalAddAndSubtract : Prop :=
  ∀ (cfg : Config) (a m p : Byte), cfg.decimalMode = .nmos → getFlag .d p = true →
    let c := if getFlag .c p then 1 else 0
    let low := fun (v : Byte) => v.toNat % 16
    let high := fun (v : Byte) => v.toNat / 16
    let signedHigh := fun (v : Byte) => if high v < 8 then (high v : Int) else (high v : Int) - 16
    let sum := adcAlu cfg a m p
    let dif := sbcAlu cfg a m p
    let digit := low a + low m + c
    let ones := if digit < 10 then digit else (digit + 6) % 16 + 16
    let tens := 16 * (high a + high m) + ones
    let total := if tens < 160 then tens else tens + 96
    let signed : Int := 16 * (signedHigh a + signedHigh m) + ones
    let digit' : Int := (low a : Int) - low m - (1 - c)
    let ones' := if 0 ≤ digit' then digit' else (digit' - 6) % 16 - 16
    let tens' := 16 * ((high a : Int) - high m) + ones'
    let total' := if 0 ≤ tens' then tens' else tens' - 96
    (sum.1.toNat = total % 256 ∧
      getFlag .c sum.2 = decide (256 ≤ total) ∧
      getFlag .z sum.2 = decide ((a.toNat + m.toNat + c) % 256 = 0) ∧
      getFlag .n sum.2 = decide (128 ≤ signed % 256) ∧
      getFlag .v sum.2 = (match cfg.vFlagMode with
        | .absent => getFlag .v p
        | .nmos => decide (signed < -128 ∨ 127 < signed)) ∧
      ∀ f, f ≠ .c → f ≠ .z → f ≠ .n → f ≠ .v → getFlag f sum.2 = getFlag f p) ∧
    ((dif.1.toNat : Int) = total' % 256 ∧
      getFlag .c dif.2 = decide (m.toNat + (1 - c) ≤ a.toNat) ∧
      getFlag .z dif.2 = decide (((a.toNat : Int) - m.toNat - (1 - c)) % 256 = 0) ∧
      getFlag .n dif.2 = decide (128 ≤ ((a.toNat : Int) - m.toNat - (1 - c)) % 256) ∧
      getFlag .v dif.2 = (match cfg.vFlagMode with
        | .absent => getFlag .v p
        | .nmos => decide (a.toInt - m.toInt - (1 - c) < -128 ∨ 127 < a.toInt - m.toInt - (1 - c))) ∧
      (∀ f, f ≠ .c → f ≠ .z → f ≠ .n → f ≠ .v → getFlag f dif.2 = getFlag f p) ∧
      dif.2 = (sbcAlu { cfg with decimalMode := .off } a m p).2) ∧
    let dec := fun (v : Byte) => high v * 10 + low v
    let digits := fun (v : Byte) => high v < 10 ∧ low v < 10
    (digits a → digits m →
      digits sum.1 ∧ dec sum.1 = (dec a + dec m + c) % 100 ∧
      getFlag .c sum.2 = decide (100 ≤ dec a + dec m + c) ∧
      digits dif.1 ∧ dec dif.1 = (dec a + 100 - dec m - (1 - c)) % 100 ∧
      getFlag .c dif.2 = decide (dec m + (1 - c) ≤ dec a))

/-- R124 to R127: the flags of the compares and of BIT. CMP under `CMP_CARRY_MODE = sticky` never clears C;
CPX and CPY write C both ways; BIT takes N and V from the operand. -/
def Obligations.CompareAndBitFlags : Prop :=
  ∀ (cfg : Config) (r m p : Byte),
    (∀ q, q = cmpFlags cfg r m p ∨ q = compareFlags r m p →
      getFlag .z q = decide (r = m) ∧
      getFlag .n q = decide (128 ≤ (r.toNat + 256 - m.toNat) % 256) ∧
      ∀ f, f ≠ .c → f ≠ .z → f ≠ .n → getFlag f q = getFlag f p) ∧
    getFlag .c (cmpFlags cfg r m p) = (match cfg.cmpCarryMode with
      | .sticky => decide (m.toNat ≤ r.toNat) || getFlag .c p
      | .nmos => decide (m.toNat ≤ r.toNat)) ∧
    getFlag .c (compareFlags r m p) = decide (m.toNat ≤ r.toNat) ∧
    getFlag .z (bitFlags cfg r m p) = decide (r &&& m = 0x00#8) ∧
    getFlag .n (bitFlags cfg r m p) = decide (128 ≤ m.toNat) ∧
    getFlag .v (bitFlags cfg r m p) = (match cfg.vFlagMode with
      | .absent => getFlag .v p
      | .nmos => decide (m.toNat / 64 % 2 = 1)) ∧
    ∀ f, f ≠ .z → f ≠ .n → f ≠ .v → getFlag f (bitFlags cfg r m p) = getFlag f p

/-! ## The instructions -/

/-- R101 to R103: every row of LDA, LDX and LDY: encoding, result, flags, cycles and fault. -/
def Obligations.Loads : Prop :=
  ∀ (s : State) (n : Byte) (nn : Word),
    (∀ f ∈ ldaForms n nn, ReadRule f (fun _ m c => { c with a := m, p := setNZ m c.p }) s) ∧
    (∀ f ∈ ldxForms n nn, ReadRule f (fun _ m c => { c with x := m, p := setNZ m c.p }) s) ∧
    (∀ f ∈ ldyForms n nn, ReadRule f (fun _ m c => { c with y := m, p := setNZ m c.p }) s)

/-- R104 to R106: every row of STA, STX and STY: encoding, the one write, cycles and faults. -/
def Obligations.Stores : Prop :=
  ∀ (s : State) (n : Byte) (nn : Word),
    (∀ f ∈ staForms n nn, StoreRule f (fun c => c.a) s) ∧
    (∀ f ∈ stxForms n nn, StoreRule f (fun c => c.x) s) ∧
    (∀ f ∈ styForms n nn, StoreRule f (fun c => c.y) s)

/-- R107 to R112: the transfers. -/
def Obligations.Transfers : Prop :=
  ∀ s : State,
    PlainRule ⟨.tax, 0xAA#8, 2⟩ (fun c => { c with x := c.a, p := setNZ c.a c.p }) s ∧
    PlainRule ⟨.tay, 0xA8#8, 2⟩ (fun c => { c with y := c.a, p := setNZ c.a c.p }) s ∧
    PlainRule ⟨.txa, 0x8A#8, 2⟩ (fun c => { c with a := c.x, p := setNZ c.x c.p }) s ∧
    PlainRule ⟨.tya, 0x98#8, 2⟩ (fun c => { c with a := c.y, p := setNZ c.y c.p }) s ∧
    PlainRule ⟨.tsx, 0xBA#8, 2⟩ (fun c => { c with x := c.sp, p := setNZ c.sp c.p }) s ∧
    PlainRule ⟨.txs, 0x9A#8, 2⟩ (fun c => { c with sp := c.x }) s

/-- R113 to R116: PHA, PHP, PLA and PLP. -/
def Obligations.StackInstructions : Prop :=
  ∀ s : State,
    let sp := s.cpu.sp
    let v := stackByte s (sp + 1#8)
    encode .pha = [0x48#8] ∧ encode .php = [0x08#8] ∧ encode .pla = [0x68#8] ∧ encode .plp = [0x28#8] ∧
    exec .pha s = .next { s with
      ram := pushed s.ram sp s.cpu.a
      cpu := { s.cpu with sp := sp - 1#8, pc := s.cpu.pc + 1#16 }
      cycles := 3 } ∧
    exec .php s = .next { s with
      ram := pushed s.ram sp
        (match s.cfg.bFlagMode with | .absent => s.cpu.p | .nmos => s.cpu.p ||| 0x30#8)
      cpu := { s.cpu with sp := sp - 1#8, pc := s.cpu.pc + 1#16 }
      cycles := 3 } ∧
    exec .pla s = .next { s with
      cpu := { s.cpu with a := v, p := setNZ v s.cpu.p, sp := sp + 1#8, pc := s.cpu.pc + 1#16 }
      cycles := 4 } ∧
    exec .plp s = .next { s with
      cpu := { s.cpu with
        p := (match s.cfg.bFlagMode with | .absent => v | .nmos => v &&& 0xCF#8 ||| 0x20#8)
        sp := sp + 1#8, pc := s.cpu.pc + 1#16 }
      cycles := 4 }

/-- R117 to R123: every row of ADC, SBC, AND, ORA and EOR; the sums and differences are those of
`BinaryAddAndSubtract` and `DecimalAddAndSubtract`. -/
def Obligations.ArithmeticAndLogic : Prop :=
  ∀ (s : State) (n : Byte) (nn : Word),
    (∀ f ∈ adcForms n nn, ReadRule f
      (fun cfg m c => { c with a := (adcAlu cfg c.a m c.p).1, p := (adcAlu cfg c.a m c.p).2 }) s) ∧
    (∀ f ∈ sbcForms n nn, ReadRule f
      (fun cfg m c => { c with a := (sbcAlu cfg c.a m c.p).1, p := (sbcAlu cfg c.a m c.p).2 }) s) ∧
    (∀ f ∈ andForms n nn, ReadRule f
      (fun _ m c => { c with a := c.a &&& m, p := setNZ (c.a &&& m) c.p }) s) ∧
    (∀ f ∈ oraForms n nn, ReadRule f
      (fun _ m c => { c with a := c.a ||| m, p := setNZ (c.a ||| m) c.p }) s) ∧
    (∀ f ∈ eorForms n nn, ReadRule f
      (fun _ m c => { c with a := c.a ^^^ m, p := setNZ (c.a ^^^ m) c.p }) s)

/-- R124 to R127: every row of CMP, CPX, CPY and BIT, with the flags of `CompareAndBitFlags`. -/
def Obligations.CompareAndBit : Prop :=
  ∀ (s : State) (n : Byte) (nn : Word),
    (∀ f ∈ cmpForms n nn, ReadRule f (fun cfg m c => { c with p := cmpFlags cfg c.a m c.p }) s) ∧
    (∀ f ∈ cpxForms n nn, ReadRule f (fun _ m c => { c with p := compareFlags c.x m c.p }) s) ∧
    (∀ f ∈ cpyForms n nn, ReadRule f (fun _ m c => { c with p := compareFlags c.y m c.p }) s) ∧
    (∀ f ∈ bitForms n nn, ReadRule f (fun cfg m c => { c with p := bitFlags cfg c.a m c.p }) s)

/-- R128, R129, R134 to R137: every memory row of INC, DEC, ASL, LSR, ROL and ROR, with the results and
carries as numbers. -/
def Obligations.ModifyMemory : Prop :=
  ∀ (s : State) (n : Byte) (nn : Word),
    let bit := fun (p : Byte) => if getFlag .c p then 1 else 0
    let shift := fun (r : Nat) (carry : Bool) (p : Byte) =>
      ((BitVec.ofNat 8 r : Byte), setNZ (BitVec.ofNat 8 r) (setFlag .c carry p))
    (∀ f ∈ incForms n nn, ModifyRule f (fun v p => (v + 1#8, setNZ (v + 1#8) p)) s) ∧
    (∀ f ∈ decForms n nn, ModifyRule f (fun v p => (v - 1#8, setNZ (v - 1#8) p)) s) ∧
    (∀ f ∈ aslForms n nn, ModifyRule f
      (fun v p => shift (2 * v.toNat) (decide (128 ≤ v.toNat)) p) s) ∧
    (∀ f ∈ lsrForms n nn, ModifyRule f
      (fun v p => shift (v.toNat / 2) (decide (v.toNat % 2 = 1)) p) s) ∧
    (∀ f ∈ rolForms n nn, ModifyRule f
      (fun v p => shift (2 * v.toNat + bit p) (decide (128 ≤ v.toNat)) p) s) ∧
    (∀ f ∈ rorForms n nn, ModifyRule f
      (fun v p => shift (v.toNat / 2 + 128 * bit p) (decide (v.toNat % 2 = 1)) p) s)

/-- R130 to R137: the register forms of increment, decrement, shift and rotate. -/
def Obligations.ModifyRegisters : Prop :=
  ∀ s : State,
    let bit := fun (p : Byte) => if getFlag .c p then 1 else 0
    let acc := fun (r : Nat) (carry : Bool) (c : Cpu) =>
      { c with a := BitVec.ofNat 8 r, p := setNZ (BitVec.ofNat 8 r) (setFlag .c carry c.p) }
    PlainRule ⟨.inx, 0xE8#8, 2⟩ (fun c => { c with x := c.x + 1#8, p := setNZ (c.x + 1#8) c.p }) s ∧
    PlainRule ⟨.iny, 0xC8#8, 2⟩ (fun c => { c with y := c.y + 1#8, p := setNZ (c.y + 1#8) c.p }) s ∧
    PlainRule ⟨.dex, 0xCA#8, 2⟩ (fun c => { c with x := c.x - 1#8, p := setNZ (c.x - 1#8) c.p }) s ∧
    PlainRule ⟨.dey, 0x88#8, 2⟩ (fun c => { c with y := c.y - 1#8, p := setNZ (c.y - 1#8) c.p }) s ∧
    PlainRule ⟨.aslAcc, 0x0A#8, 2⟩ (fun c => acc (2 * c.a.toNat) (decide (128 ≤ c.a.toNat)) c) s ∧
    PlainRule ⟨.lsrAcc, 0x4A#8, 2⟩ (fun c => acc (c.a.toNat / 2) (decide (c.a.toNat % 2 = 1)) c) s ∧
    PlainRule ⟨.rolAcc, 0x2A#8, 2⟩
      (fun c => acc (2 * c.a.toNat + bit c.p) (decide (128 ≤ c.a.toNat)) c) s ∧
    PlainRule ⟨.rorAcc, 0x6A#8, 2⟩
      (fun c => acc (c.a.toNat / 2 + 128 * bit c.p) (decide (c.a.toNat % 2 = 1)) c) s

/-- R138 to R146, R90: the eight branches, taken and not taken, in every state. -/
def Obligations.Branches : Prop :=
  ∀ (s : State) (n : Byte), ∀ f ∈ branchForms n, BranchRule f n s

/-- R148 to R150, R89: JMP absolute and indirect, JSR and RTS. The indirect pointer's high byte comes from the same page. -/
def Obligations.JumpsAndSubroutines : Prop :=
  ∀ (s : State) (nn : Word),
    let second := joinBytes (highByte nn) (lowByte nn + 1#8)
    encode (.jmpAbs nn) = [0x4C#8, lowByte nn, highByte nn] ∧
    exec (.jmpAbs nn) s = .next { s with cpu := { s.cpu with pc := nn }, cycles := 3 } ∧
    encode (.jmpInd nn) = [0x6C#8, lowByte nn, highByte nn] ∧
    (¬Unmapped nn → ¬Unmapped second → ∃ lo hi t u, read8 nn s = .ok lo t ∧
      read8 second t = .ok hi u ∧
      exec (.jmpInd nn) s = .next { u with
        cpu := { s.cpu with pc := joinBytes hi lo }, cycles := 5 }) ∧
    (Unmapped nn → exec (.jmpInd nn) s = .fault (faultOf (.addressOutOfRange nn .read) s s)) ∧
    (¬Unmapped nn → Unmapped second → ∃ lo t, read8 nn s = .ok lo t ∧
      exec (.jmpInd nn) s = .fault (faultOf (.addressOutOfRange second .read) s t)) ∧
    let sp := s.cpu.sp
    let ret := s.cpu.pc + 2#16
    encode (.jsr nn) = [0x20#8, lowByte nn, highByte nn] ∧
    exec (.jsr nn) s = .next { s with
      ram := pushed (pushed s.ram sp (highByte ret)) (sp - 1#8) (lowByte ret)
      cpu := { s.cpu with sp := sp - 2#8, pc := nn }
      cycles := 6 } ∧
    encode .rts = [0x60#8] ∧
    exec .rts s = .next { s with
      cpu := { s.cpu with
        sp := sp + 2#8
        pc := joinBytes (stackByte s (sp + 2#8)) (stackByte s (sp + 1#8)) + 1#16 }
      cycles := 6 }

/-- R151 to R153: BRK takes the exception through 0xFFFE; RTI restores P and PC; NOP only moves on. -/
def Obligations.BreakReturnAndNoOperation : Prop :=
  ∀ s : State,
    let sp := s.cpu.sp
    let ret := s.cpu.pc + 2#16
    let v := stackByte s (sp + 1#8)
    encode .brk = [0x00#8] ∧
    exec .brk s = .next { s with
      ram := pushed (pushed (pushed s.ram sp (highByte ret)) (sp - 1#8) (lowByte ret)) (sp - 2#8)
        (match s.cfg.bFlagMode with | .absent => s.cpu.p | .nmos => s.cpu.p ||| 0x30#8)
      cpu := { s.cpu with
        sp := sp - 3#8, p := s.cpu.p ||| 0x04#8, pc := prgWord s.cart 0xFFFE#16 }
      cycles := 7 } ∧
    encode .rti = [0x40#8] ∧
    exec .rti s = .next { s with
      cpu := { s.cpu with
        p := (match s.cfg.bFlagMode with | .absent => v | .nmos => v &&& 0xCF#8 ||| 0x20#8)
        sp := sp + 3#8
        pc := joinBytes (stackByte s (sp + 3#8)) (stackByte s (sp + 2#8)) }
      cycles := 6 } ∧
    PlainRule ⟨.nop, 0xEA#8, 2⟩ (fun c => c) s

/-- R154 to R160: the flag instructions, each writing its one bit of P. -/
def Obligations.FlagInstructions : Prop :=
  ∀ s : State,
    PlainRule ⟨.clc, 0x18#8, 2⟩ (fun c => { c with p := c.p &&& 0xFE#8 }) s ∧
    PlainRule ⟨.sec, 0x38#8, 2⟩ (fun c => { c with p := c.p ||| 0x01#8 }) s ∧
    PlainRule ⟨.cli, 0x58#8, 2⟩ (fun c => { c with p := c.p &&& 0xFB#8 }) s ∧
    PlainRule ⟨.sei, 0x78#8, 2⟩ (fun c => { c with p := c.p ||| 0x04#8 }) s ∧
    PlainRule ⟨.cld, 0xD8#8, 2⟩ (fun c => { c with p := c.p &&& 0xF7#8 }) s ∧
    PlainRule ⟨.sed, 0xF8#8, 2⟩ (fun c => { c with p := c.p ||| 0x08#8 }) s ∧
    PlainRule ⟨.clv, 0xB8#8, 2⟩ (fun c => { c with p := c.p &&& 0xBF#8 }) s

/-! ## Frames -/

/-- R27, R19, R15 to R17, R36, R166: an instruction that goes on changes no flag outside its row of the table
of R27, no register outside those its rule writes, and of itself neither the interrupt slot, the PPU
counters, the cartridge, a parameter, the pause flag nor the fault record. -/
def Obligations.InstructionsWriteOnlyTheirFlagsAndRegisters : Prop :=
  ∀ (i : Instr) (s t : State), exec i s = .next t →
    (∀ f, f ∉ flagsWritten s.cfg i → getFlag f t.cpu.p = getFlag f s.cpu.p) ∧
    (∀ r, r ∉ registersWritten i → t.cpu.reg r = s.cpu.reg r) ∧
    t.pending = s.pending ∧ t.timing = s.timing ∧ t.cart = s.cart ∧ t.cfg = s.cfg ∧
    t.paused = s.paused ∧ t.fault = s.fault

/-- Memory frame of the instructions that store nothing: those without a memory operand and those that pull
leave every memory as it was; a read-class row leaves every CPU address as it was, except the one it read
if that is 0x2002 or 0x2007, and leaves OAM as it was, and VRAM too unless it read 0x2007; JMP (ind)
likewise for the two addresses it reads its pointer from. -/
def Obligations.NonStoringInstructionsLeaveMemory : Prop :=
  ∀ (s t : State) (n : Byte) (nn : Word),
    (∀ i, i ∈ quietInstrs n nn ∨ i ∈ pullInstrs → exec i s = .next t →
      (∀ a, peek a t = peek a s) ∧ t.vram = s.vram ∧ t.oam = s.oam ∧ t.ppuReg = s.ppuReg) ∧
    (∀ f ∈ readForms n nn, exec f.instr s = .next t →
      (∀ p, f.source = .mem p → ∀ a,
        (a = (placeEff p s).addr → a ≠ 0x2002#16 ∧ a ≠ 0x2007#16) → peek a t = peek a s) ∧
      (∀ p, f.source = .mem p → (placeEff p s).addr ≠ 0x2007#16 → t.vram = s.vram) ∧
      (∀ m, f.source = .imm m → (∀ a, peek a t = peek a s) ∧ t.vram = s.vram) ∧
      t.oam = s.oam) ∧
    (exec (.jmpInd nn) s = .next t →
      let second := joinBytes (highByte nn) (lowByte nn + 1#8)
      (∀ a, (a = nn ∨ a = second → a ≠ 0x2002#16 ∧ a ≠ 0x2007#16) → peek a t = peek a s) ∧
      (nn ≠ 0x2007#16 → second ≠ 0x2007#16 → t.vram = s.vram) ∧
      t.oam = s.oam)

/-- Memory frame of the stores and the read-modify-write rows: every CPU address outside the cell of the
effective address reads as before; VRAM changes only through 0x2007, and OAM only through 0x2004 and
0x4014. -/
def Obligations.StoresChangeOnlyTheirCell : Prop :=
  ∀ (s t : State) (n : Byte) (nn : Word),
    ∀ f ∈ storeForms n nn ++ modifyForms n nn, exec f.instr s = .next t →
      let ea := (placeEff f.place s).addr
      (∀ a, ¬SameCell a ea → peek a t = peek a s) ∧
      (ea ≠ 0x2007#16 → t.vram = s.vram) ∧
      (ea ≠ 0x2004#16 → ea ≠ 0x4014#16 → t.oam = s.oam)

/-- Memory frame of the instructions that push: every CPU address outside the cells of the stack bytes they
push reads as before, and VRAM, OAM and the register cells are as they were. -/
def Obligations.PushesChangeOnlyTheStack : Prop :=
  ∀ (s t : State) (nn : Word),
    ∀ q ∈ pushInstrs nn, exec q.1 s = .next t →
      (∀ a, (∀ k, k < q.2 → ¬SameCell a (stackAddr (s.cpu.sp - BitVec.ofNat 8 k))) →
        peek a t = peek a s) ∧
      t.vram = s.vram ∧ t.oam = s.oam ∧ t.ppuReg = s.ppuReg

/-- R37, R191: under `PPUDATA_READ_MODE = literal` a program cannot learn the contents of VRAM or OAM: with
other contents in them, a step goes on to the same state but for them. -/
def Obligations.VideoMemoryNeverReachesTheCpu : Prop :=
  ∀ (s t : State) (vram oam : Memory), s.cfg.ppuDataReadMode = .literal → step s = .next t →
    ∃ vram' oam', step { s with vram := vram, oam := oam } = .next { t with vram := vram', oam := oam' }

/-! ## Launch -/

/-- R195, R196, R200: which images a launch accepts, the refusal of each other, in the spec's order, and the
PRG and CHR of an accepted one, which start at byte 16 whatever byte 6 says of a trainer. A launch of an
accepted image answers its power-on state, which holds that cartridge and the launch's parameters, and a
launch of any other is refused. That an image too short to hold bytes 4 to 7 is refused as corrupt is the
model's choice (log 14). -/
def Obligations.LaunchAcceptsMapperZeroImages : Prop :=
  ∀ (cfg : Config) (l : Launch) (img : List Byte),
    let refusal := fun (r : Refusal) => loadImage img = .error r ∧ launch cfg l img = .refused r
    (img.length < 8 → refusal .corruptRomImage) ∧
    (8 ≤ img.length →
      let b := fun k => (img.getD k 0x00#8).toNat
      let mapper := b 7 / 16 * 16 + b 6 / 16
      let size := b 4 * 16384
      if ¬(b 0 = 0x4E ∧ b 1 = 0x45 ∧ b 2 = 0x53 ∧ b 3 = 0x1A) then refusal .corruptRomImage
      else if mapper ≠ 0 then refusal (.unsupportedMapper (BitVec.ofNat 8 mapper))
      else if ¬((b 4 = 1 ∨ b 4 = 2) ∧ b 5 = 1) then refusal (.unsupportedMapper 0x00#8)
      else if img.length < 16 + size + 8192 then refusal .corruptRomImage
      else ∃ c, loadImage img = .ok c ∧ launch cfg l img = .next (powerOn cfg l c) ∧
        (powerOn cfg l c).cart = c ∧ (powerOn cfg l c).cfg = cfg ∧ c.banks.size = size ∧
        (∀ k, k < size → Memory.read c.prg k = img.getD (16 + k) 0x00#8) ∧
        (∀ k, k < 8192 → Memory.read c.chr k = img.getD (16 + size + k) 0x00#8))

/-- R197 to R199, R66: the power-on state of the PPU and the CPU, whatever the launch inputs are: counters at the
start of a frame, I set, PC from the RESET vector read directly, no interrupt, no fault, not paused; the memories
are the launch inputs, with CHR over VRAM 0x0000 to 0x1FFF. -/
def Obligations.PowerOnState : Prop :=
  ∀ (cfg : Config) (l : Launch) (c : Cartridge), Memory.within 8192 c.chr →
    let s := powerOn cfg l c
    s.timing = { frameDots := 0, lineDots := 0, scanline := 0, phase := 1 } ∧
    s.control = {
      nametable := 0#2, increment := .by1, spriteBase := .at0000, bgBase := .at0000
      spriteSize := .size8x8, nmiEnable := false, monochrome := false } ∧
    s.cursors = { vramPtr := 0#16, latchHi := 0#8, latchLo := 0#8, latchNext := .high, oamCursor := 0#8 } ∧
    s.cpu.a = l.initA ∧ s.cpu.x = l.initX ∧ s.cpu.y = l.initY ∧ s.cpu.sp = l.initS ∧
    s.cpu.p = (match cfg.bFlagMode with
      | .absent => l.initP ||| 0x04#8
      | .nmos => l.initP &&& 0xCF#8 ||| 0x24#8) ∧
    getFlag .i s.cpu.p = true ∧
    read16 0xFFFC#16 s = .ok s.cpu.pc s ∧
    s.pending = none ∧ s.fault = none ∧ s.paused = false ∧ s.ioSeq = 0 ∧
    s.ram = l.initRam ∧ s.ppuReg = l.initPpuReg ∧ s.oam = l.initOam ∧
    ∀ a : Word, vramRead a s =
      if a.toNat < 0x2000 then Memory.read c.chr a.toNat else Memory.read l.initVram a.toNat
end

