-- ==== Sys2Proof/Laws/Memory.lean ====
section
/-! SUPPORT. The laws of the memory arrays: read after write, and that every operation keeps the
canonical form and the bounds. -/

namespace Sys2Proof.Machine

open Sys2Proof

theorem Memory.read_eq_unlisted {m : Memory} {a : Nat} (h : ∀ p ∈ m, p.1 ≠ a) :
    Memory.read m a = unlisted := by
  induction m with
  | nil => rfl
  | cons c m ih =>
    obtain ⟨k, w⟩ := c
    have hk : k ≠ a := h (k, w) (by simp)
    simp only [Memory.read, if_neg hk]
    exact ih fun p hp => h p (by simp [hp])

theorem Memory.wf_nil : Memory.wf [] := ⟨List.Pairwise.nil, by simp⟩

/-- Every address below the first key of a canonical array reads as unlisted. -/
theorem Memory.read_below {m : Memory} {a : Nat} (h : ∀ p ∈ m, a < p.1) :
    Memory.read m a = unlisted :=
  Memory.read_eq_unlisted fun p hp => (h p hp).ne'

theorem Memory.wf_tail {c : Host.Cell} {m : Memory} (h : Memory.wf (c :: m)) : Memory.wf m :=
  ⟨(List.pairwise_cons.1 h.1).2, fun p hp => h.2 p (by simp [hp])⟩

theorem Memory.wf_head {c : Host.Cell} {m : Memory} (h : Memory.wf (c :: m)) :
    ∀ p ∈ m, c.1 < p.1 :=
  (List.pairwise_cons.1 h.1).1

@[simp] theorem Memory.read_consCell_same {m : Memory} {a : Nat} {v : Byte}
    (h : ∀ p ∈ m, a < p.1) : Memory.read (Memory.consCell a v m) a = v := by
  unfold Memory.consCell
  split
  · rw [Memory.read_below h, ‹v = unlisted›]
  · simp [Memory.read]

theorem Memory.read_consCell_other {m : Memory} {a b : Nat} {v : Byte} (hab : b ≠ a) :
    Memory.read (Memory.consCell a v m) b = Memory.read m b := by
  unfold Memory.consCell
  split
  · rfl
  · simp [Memory.read, hab.symm]

/-- A read after a write to the same cell gives the value written. -/
theorem Memory.read_write_same {m : Memory} (h : Memory.wf m) (a : Nat) (v : Byte) :
    Memory.read (Memory.write m a v) a = v := by
  induction m with
  | nil => exact Memory.read_consCell_same (by simp)
  | cons c m ih =>
    obtain ⟨k, w⟩ := c
    have hm := Memory.wf_head h
    simp only [Memory.write]
    split
    · refine Memory.read_consCell_same fun p hp => ?_
      rcases List.mem_cons.1 hp with rfl | hp
      · assumption
      · have := hm p hp
        simp only at this
        omega
    · split
      · subst a
        exact Memory.read_consCell_same hm
      · rw [Memory.read, if_neg (by omega)]
        exact ih (Memory.wf_tail h)

/-- A write leaves every other cell alone. -/
theorem Memory.read_write_other {m : Memory} (a b : Nat) (v : Byte) (hab : b ≠ a) :
    Memory.read (Memory.write m a v) b = Memory.read m b := by
  induction m with
  | nil => exact Memory.read_consCell_other hab
  | cons c m ih =>
    obtain ⟨k, w⟩ := c
    simp only [Memory.write]
    split
    · exact Memory.read_consCell_other hab
    · split
      · subst a
        rw [Memory.read_consCell_other hab]
        simp [Memory.read, hab.symm]
      · simp only [Memory.read, ih]

theorem Memory.mem_consCell {m : Memory} {a : Nat} {v : Byte} {p : Host.Cell}
    (h : p ∈ Memory.consCell a v m) : p = (a, v) ∨ p ∈ m := by
  unfold Memory.consCell at h
  split at h
  · exact .inr h
  · simpa using h

theorem Memory.mem_write {m : Memory} {a : Nat} {v : Byte} {p : Host.Cell}
    (h : p ∈ Memory.write m a v) : p = (a, v) ∨ p ∈ m := by
  induction m with
  | nil => exact Memory.mem_consCell h
  | cons c m ih =>
    obtain ⟨k, w⟩ := c
    simp only [Memory.write] at h
    split at h
    · exact Memory.mem_consCell h
    · split at h
      · rcases Memory.mem_consCell h with h | h
        · exact .inl h
        · exact .inr (by simp [h])
      · rcases List.mem_cons.1 h with h | h
        · exact .inr (by simp [h])
        · rcases ih h with h | h
          · exact .inl h
          · exact .inr (by simp [h])

theorem Memory.consCell_wf {m : Memory} {a : Nat} {v : Byte} (h : Memory.wf m)
    (ha : ∀ p ∈ m, a < p.1) : Memory.wf (Memory.consCell a v m) := by
  unfold Memory.consCell
  split
  · exact h
  · refine ⟨List.pairwise_cons.2 ⟨ha, h.1⟩, fun p hp => ?_⟩
    rcases List.mem_cons.1 hp with rfl | hp
    · assumption
    · exact h.2 p hp

/-- A write keeps the canonical form. -/
theorem Memory.write_wf {m : Memory} (h : Memory.wf m) (a : Nat) (v : Byte) :
    Memory.wf (Memory.write m a v) := by
  induction m with
  | nil => exact Memory.consCell_wf Memory.wf_nil (by simp)
  | cons c m ih =>
    obtain ⟨k, w⟩ := c
    have hm := Memory.wf_head h
    have ht := ih (Memory.wf_tail h)
    simp only [Memory.write]
    split
    · refine Memory.consCell_wf h fun p hp => ?_
      rcases List.mem_cons.1 hp with rfl | hp
      · assumption
      · have := hm p hp
        simp only at this
        omega
    · split
      · subst a
        exact Memory.consCell_wf (Memory.wf_tail h) hm
      · refine ⟨List.pairwise_cons.2 ⟨fun p hp => ?_, ht.1⟩, fun p hp => ?_⟩
        · rcases Memory.mem_write hp with rfl | hp
          · show k < a
            omega
          · exact hm p hp
        · rcases List.mem_cons.1 hp with rfl | hp
          · exact h.2 (k, w) (by simp)
          · exact ht.2 p hp

/-- A write inside an array keeps its bound. -/
theorem Memory.write_within {m : Memory} {size a : Nat} (h : Memory.within size m) (ha : a < size)
    (v : Byte) : Memory.within size (Memory.write m a v) := by
  intro p hp
  rcases Memory.mem_write hp with rfl | hp
  · exact ha
  · exact h p hp

/-- A run of writes keeps the canonical form. -/
theorem Memory.foldl_write_wf {α : Type} (f : α → Nat) (v : Byte) (l : List α) {m : Memory}
    (h : Memory.wf m) : Memory.wf (l.foldl (fun m b => Memory.write m (f b) v) m) := by
  induction l generalizing m with
  | nil => exact h
  | cons b l ih => exact ih (Memory.write_wf h (f b) v)

/-- A run of writes inside an array keeps its bound. -/
theorem Memory.foldl_write_within {α : Type} (f : α → Nat) (v : Byte) (size : Nat)
    (hf : ∀ b, f b < size) (l : List α) {m : Memory} (h : Memory.within size m) :
    Memory.within size (l.foldl (fun m b => Memory.write m (f b) v) m) := by
  induction l generalizing m with
  | nil => exact h
  | cons b l ih => exact ih (Memory.write_within h (hf b) v)

/-- What a run of writes of one value leaves at an address. -/
theorem Memory.read_foldl_write {α : Type} (f : α → Nat) (v : Byte) (l : List α) {m : Memory}
    (h : Memory.wf m) (a : Nat) :
    Memory.read (l.foldl (fun m b => Memory.write m (f b) v) m) a =
      if a ∈ l.map f then v else Memory.read m a := by
  induction l generalizing m with
  | nil => simp
  | cons b l ih =>
    rw [List.foldl_cons, ih (Memory.write_wf h (f b) v)]
    by_cases hab : a = f b
    · subst hab
      simp [Memory.read_write_same h]
    · simp [Memory.read_write_other (f b) a v hab, hab]

theorem Memory.mem_ofBytes {p : Host.Cell} {l : List Byte} {a : Nat}
    (h : p ∈ Memory.ofBytes a l) : a ≤ p.1 ∧ p.1 < a + l.length := by
  induction l generalizing a with
  | nil => simp [Memory.ofBytes] at h
  | cons v l ih =>
    rcases Memory.mem_consCell h with rfl | h
    · simp
    · have := ih h
      simp only [List.length_cons]
      omega

/-- An array built from bytes is canonical. -/
theorem Memory.ofBytes_wf (a : Nat) (l : List Byte) : Memory.wf (Memory.ofBytes a l) := by
  induction l generalizing a with
  | nil => exact Memory.wf_nil
  | cons v l ih =>
    exact Memory.consCell_wf (ih _) fun p hp => by
      have := (Memory.mem_ofBytes hp).1
      omega

/-- What an array built from bytes holds. -/
theorem Memory.read_ofBytes (a k : Nat) (l : List Byte) :
    Memory.read (Memory.ofBytes a l) (a + k) = l.getD k unlisted := by
  induction l generalizing a k with
  | nil => simp [Memory.ofBytes, Memory.read]
  | cons v l ih =>
    rw [Memory.ofBytes]
    cases k with
    | zero =>
      simp only [Nat.add_zero]
      rw [Memory.read_consCell_same]
      · rfl
      · intro p hp
        have := (Memory.mem_ofBytes hp).1
        omega
    | succ k =>
      rw [Memory.read_consCell_other (by omega)]
      have := ih (a + 1) k
      rw [show a + 1 + k = a + (k + 1) by omega] at this
      rw [this]
      rfl

theorem Memory.read_append_left {l r : Memory} {a : Nat} (h : ∀ p ∈ r, p.1 ≠ a) :
    Memory.read (l ++ r) a = Memory.read l a := by
  induction l with
  | nil => simpa [Memory.read] using Memory.read_eq_unlisted h
  | cons c l ih =>
    obtain ⟨k, w⟩ := c
    simp only [List.cons_append, Memory.read, ih]

theorem Memory.read_append_right {l r : Memory} {a : Nat} (h : ∀ p ∈ l, p.1 ≠ a) :
    Memory.read (l ++ r) a = Memory.read r a := by
  induction l with
  | nil => rfl
  | cons c l ih =>
    obtain ⟨k, w⟩ := c
    have hk : k ≠ a := h (k, w) (by simp)
    simp only [List.cons_append, Memory.read, if_neg hk]
    exact ih fun p hp => h p (by simp [hp])

theorem Memory.read_filter_ge (size : Nat) (m : Memory) {a : Nat} (ha : size ≤ a) :
    Memory.read (m.filter (fun c => size ≤ c.1)) a = Memory.read m a := by
  induction m with
  | nil => rfl
  | cons c m ih =>
    obtain ⟨k, w⟩ := c
    simp only [List.filter_cons]
    split
    · simp only [Memory.read, ih]
    · have hk : k ≠ a := by
        rintro rfl
        simp_all
      rw [ih, Memory.read, if_neg hk]

/-- The overlay reads from the low array below `size`, and from the high one above. -/
theorem Memory.read_overlay {size : Nat} {low high : Memory} (h : Memory.within size low) (a : Nat) :
    Memory.read (Memory.overlay size low high) a =
      if a < size then Memory.read low a else Memory.read high a := by
  unfold Memory.overlay
  split
  · refine Memory.read_append_left fun p hp => ?_
    have := (List.mem_filter.1 hp).2
    simp only [decide_eq_true_eq] at this
    omega
  · rw [Memory.read_append_right, Memory.read_filter_ge size high (by omega)]
    intro p hp
    have := h p hp
    omega

/-- The overlay keeps the canonical form. -/
theorem Memory.overlay_wf {size : Nat} {low high : Memory} (hl : Memory.wf low)
    (hb : Memory.within size low) (hh : Memory.wf high) :
    Memory.wf (Memory.overlay size low high) := by
  refine ⟨List.pairwise_append.2 ⟨hl.1, hh.1.filter _, fun p hp q hq => ?_⟩, fun p hp => ?_⟩
  · have h1 := hb p hp
    have h2 := (List.mem_filter.1 hq).2
    simp only [decide_eq_true_eq] at h2
    omega
  · rcases List.mem_append.1 hp with hp | hp
    · exact hl.2 p hp
    · exact hh.2 p (List.mem_filter.1 hp).1

/-- The overlay stays inside the bound of the high array. -/
theorem Memory.overlay_within {size bound : Nat} {low high : Memory} (hs : size ≤ bound)
    (hb : Memory.within size low) (hh : Memory.within bound high) :
    Memory.within bound (Memory.overlay size low high) := by
  intro p hp
  rcases List.mem_append.1 hp with hp | hp
  · exact (hb p hp).trans_le hs
  · exact hh p (List.mem_filter.1 hp).1

/-- Writing what a cell holds changes nothing: equal memories are equal lists. -/
theorem Memory.write_read_self {m : Memory} (h : Memory.wf m) (a : Nat) :
    Memory.write m a (Memory.read m a) = m := by
  induction m with
  | nil => simp [Memory.write, Memory.read, Memory.consCell]
  | cons c m ih =>
    obtain ⟨k, w⟩ := c
    have hw : w ≠ unlisted := h.2 (k, w) (by simp)
    by_cases h1 : a < k
    · have hr : Memory.read ((k, w) :: m) a = unlisted := by
        refine Memory.read_below fun p hp => ?_
        rcases List.mem_cons.1 hp with rfl | hp
        · exact h1
        · exact Nat.lt_trans h1 (Memory.wf_head h p hp)
      simp [hr, Memory.write, h1, Memory.consCell]
    · by_cases h2 : a = k
      · subst h2
        simp [Memory.write, Memory.read, Memory.consCell, hw]
      · simp only [Memory.write, Memory.read, h1, h2, Ne.symm h2, if_false, ih (Memory.wf_tail h)]

/-- A second write of the same byte changes nothing. -/
theorem Memory.write_write_same {m : Memory} (h : Memory.wf m) (a : Nat) (v : Byte) :
    Memory.write (Memory.write m a v) a v = Memory.write m a v := by
  have := Memory.write_read_self (Memory.write_wf h a v) a
  rwa [Memory.read_write_same h] at this

theorem mirrorTarget_eq_some {source target size a b : Nat} :
    mirrorTarget { source, target, size } a = some b ↔
      (source ≤ a ∧ a < source + size) ∧ b = target + (a - source) := by
  unfold mirrorTarget
  split <;> simp_all [eq_comm]

/-- The RAM mirror set keeps the four copies of every cell together (log 13): a write at `a` is a write
at every address of the RAM window that has the same index. -/
theorem ramMirrors_reach (a b : Nat) (ha : a < 0x2000) :
    (b = a ∨ b ∈ ramMirrorRules.filterMap (fun r => mirrorTarget r a)) ↔
      b < 0x2000 ∧ b % 0x0800 = a % 0x0800 := by
  rw [List.mem_filterMap]
  constructor
  · rintro (rfl | ⟨⟨source, target, size⟩, hr, h⟩)
    · exact ⟨ha, rfl⟩
    · have h := mirrorTarget_eq_some.1 h
      simp only [ramMirrorRules, twoSidedMirror, List.cons_append, List.nil_append, List.mem_cons,
        List.not_mem_nil, or_false, MirrorRule.mk.injEq] at hr
      omega
  · rintro ⟨hb, hab⟩
    by_cases hq : b / 0x800 = a / 0x800
    · left
      omega
    · right
      refine ⟨{ source := 0x800 * (a / 0x800), target := 0x800 * (b / 0x800), size := 0x800 }, ?_,
        mirrorTarget_eq_some.2 ⟨⟨by omega, by omega⟩, by omega⟩⟩
      have h1 : a / 0x800 < 4 := by omega
      have h2 : b / 0x800 < 4 := by omega
      generalize a / 0x800 = q at hq h1 ⊢
      generalize b / 0x800 = r at hq h2 ⊢
      interval_cases q <;> interval_cases r <;> first | exact absurd rfl hq | decide

end Sys2Proof.Machine
end

