-- ==== Sys2Proof/Laws/State.lean ====
section
/-! SUPPORT. One lemma per field per named update of `State`, each true by `rfl`. -/

namespace Sys2Proof.Machine

open Sys2Proof

@[simp] theorem setA_a (v : Byte) (s : State) : (setA v s).cpu.a = v := rfl
@[simp] theorem setA_x (v : Byte) (s : State) : (setA v s).cpu.x = s.cpu.x := rfl
@[simp] theorem setA_y (v : Byte) (s : State) : (setA v s).cpu.y = s.cpu.y := rfl
@[simp] theorem setA_sp (v : Byte) (s : State) : (setA v s).cpu.sp = s.cpu.sp := rfl
@[simp] theorem setA_p (v : Byte) (s : State) : (setA v s).cpu.p = s.cpu.p := rfl
@[simp] theorem setA_pc (v : Byte) (s : State) : (setA v s).cpu.pc = s.cpu.pc := rfl
@[simp] theorem setA_pending (v : Byte) (s : State) : (setA v s).pending = s.pending := rfl
@[simp] theorem setA_fault (v : Byte) (s : State) : (setA v s).fault = s.fault := rfl
@[simp] theorem setA_paused (v : Byte) (s : State) : (setA v s).paused = s.paused := rfl
@[simp] theorem setA_ioSeq (v : Byte) (s : State) : (setA v s).ioSeq = s.ioSeq := rfl
@[simp] theorem setA_ram (v : Byte) (s : State) : (setA v s).ram = s.ram := rfl
@[simp] theorem setA_ppuReg (v : Byte) (s : State) : (setA v s).ppuReg = s.ppuReg := rfl
@[simp] theorem setA_vram (v : Byte) (s : State) : (setA v s).vram = s.vram := rfl
@[simp] theorem setA_oam (v : Byte) (s : State) : (setA v s).oam = s.oam := rfl
@[simp] theorem setA_cart (v : Byte) (s : State) : (setA v s).cart = s.cart := rfl
@[simp] theorem setA_timing (v : Byte) (s : State) : (setA v s).timing = s.timing := rfl
@[simp] theorem setA_control (v : Byte) (s : State) : (setA v s).control = s.control := rfl
@[simp] theorem setA_cursors (v : Byte) (s : State) : (setA v s).cursors = s.cursors := rfl
@[simp] theorem setA_cycles (v : Byte) (s : State) : (setA v s).cycles = s.cycles := rfl
@[simp] theorem setA_cfg (v : Byte) (s : State) : (setA v s).cfg = s.cfg := rfl

@[simp] theorem setSp_a (v : Byte) (s : State) : (setSp v s).cpu.a = s.cpu.a := rfl
@[simp] theorem setSp_x (v : Byte) (s : State) : (setSp v s).cpu.x = s.cpu.x := rfl
@[simp] theorem setSp_y (v : Byte) (s : State) : (setSp v s).cpu.y = s.cpu.y := rfl
@[simp] theorem setSp_sp (v : Byte) (s : State) : (setSp v s).cpu.sp = v := rfl
@[simp] theorem setSp_p (v : Byte) (s : State) : (setSp v s).cpu.p = s.cpu.p := rfl
@[simp] theorem setSp_pc (v : Byte) (s : State) : (setSp v s).cpu.pc = s.cpu.pc := rfl
@[simp] theorem setSp_pending (v : Byte) (s : State) : (setSp v s).pending = s.pending := rfl
@[simp] theorem setSp_fault (v : Byte) (s : State) : (setSp v s).fault = s.fault := rfl
@[simp] theorem setSp_paused (v : Byte) (s : State) : (setSp v s).paused = s.paused := rfl
@[simp] theorem setSp_ioSeq (v : Byte) (s : State) : (setSp v s).ioSeq = s.ioSeq := rfl
@[simp] theorem setSp_ram (v : Byte) (s : State) : (setSp v s).ram = s.ram := rfl
@[simp] theorem setSp_ppuReg (v : Byte) (s : State) : (setSp v s).ppuReg = s.ppuReg := rfl
@[simp] theorem setSp_vram (v : Byte) (s : State) : (setSp v s).vram = s.vram := rfl
@[simp] theorem setSp_oam (v : Byte) (s : State) : (setSp v s).oam = s.oam := rfl
@[simp] theorem setSp_cart (v : Byte) (s : State) : (setSp v s).cart = s.cart := rfl
@[simp] theorem setSp_timing (v : Byte) (s : State) : (setSp v s).timing = s.timing := rfl
@[simp] theorem setSp_control (v : Byte) (s : State) : (setSp v s).control = s.control := rfl
@[simp] theorem setSp_cursors (v : Byte) (s : State) : (setSp v s).cursors = s.cursors := rfl
@[simp] theorem setSp_cycles (v : Byte) (s : State) : (setSp v s).cycles = s.cycles := rfl
@[simp] theorem setSp_cfg (v : Byte) (s : State) : (setSp v s).cfg = s.cfg := rfl

@[simp] theorem setP_a (v : Byte) (s : State) : (setP v s).cpu.a = s.cpu.a := rfl
@[simp] theorem setP_x (v : Byte) (s : State) : (setP v s).cpu.x = s.cpu.x := rfl
@[simp] theorem setP_y (v : Byte) (s : State) : (setP v s).cpu.y = s.cpu.y := rfl
@[simp] theorem setP_sp (v : Byte) (s : State) : (setP v s).cpu.sp = s.cpu.sp := rfl
@[simp] theorem setP_p (v : Byte) (s : State) : (setP v s).cpu.p = v := rfl
@[simp] theorem setP_pc (v : Byte) (s : State) : (setP v s).cpu.pc = s.cpu.pc := rfl
@[simp] theorem setP_pending (v : Byte) (s : State) : (setP v s).pending = s.pending := rfl
@[simp] theorem setP_fault (v : Byte) (s : State) : (setP v s).fault = s.fault := rfl
@[simp] theorem setP_paused (v : Byte) (s : State) : (setP v s).paused = s.paused := rfl
@[simp] theorem setP_ioSeq (v : Byte) (s : State) : (setP v s).ioSeq = s.ioSeq := rfl
@[simp] theorem setP_ram (v : Byte) (s : State) : (setP v s).ram = s.ram := rfl
@[simp] theorem setP_ppuReg (v : Byte) (s : State) : (setP v s).ppuReg = s.ppuReg := rfl
@[simp] theorem setP_vram (v : Byte) (s : State) : (setP v s).vram = s.vram := rfl
@[simp] theorem setP_oam (v : Byte) (s : State) : (setP v s).oam = s.oam := rfl
@[simp] theorem setP_cart (v : Byte) (s : State) : (setP v s).cart = s.cart := rfl
@[simp] theorem setP_timing (v : Byte) (s : State) : (setP v s).timing = s.timing := rfl
@[simp] theorem setP_control (v : Byte) (s : State) : (setP v s).control = s.control := rfl
@[simp] theorem setP_cursors (v : Byte) (s : State) : (setP v s).cursors = s.cursors := rfl
@[simp] theorem setP_cycles (v : Byte) (s : State) : (setP v s).cycles = s.cycles := rfl
@[simp] theorem setP_cfg (v : Byte) (s : State) : (setP v s).cfg = s.cfg := rfl

@[simp] theorem setPc_a (v : Word) (s : State) : (setPc v s).cpu.a = s.cpu.a := rfl
@[simp] theorem setPc_x (v : Word) (s : State) : (setPc v s).cpu.x = s.cpu.x := rfl
@[simp] theorem setPc_y (v : Word) (s : State) : (setPc v s).cpu.y = s.cpu.y := rfl
@[simp] theorem setPc_sp (v : Word) (s : State) : (setPc v s).cpu.sp = s.cpu.sp := rfl
@[simp] theorem setPc_p (v : Word) (s : State) : (setPc v s).cpu.p = s.cpu.p := rfl
@[simp] theorem setPc_pc (v : Word) (s : State) : (setPc v s).cpu.pc = v := rfl
@[simp] theorem setPc_pending (v : Word) (s : State) : (setPc v s).pending = s.pending := rfl
@[simp] theorem setPc_fault (v : Word) (s : State) : (setPc v s).fault = s.fault := rfl
@[simp] theorem setPc_paused (v : Word) (s : State) : (setPc v s).paused = s.paused := rfl
@[simp] theorem setPc_ioSeq (v : Word) (s : State) : (setPc v s).ioSeq = s.ioSeq := rfl
@[simp] theorem setPc_ram (v : Word) (s : State) : (setPc v s).ram = s.ram := rfl
@[simp] theorem setPc_ppuReg (v : Word) (s : State) : (setPc v s).ppuReg = s.ppuReg := rfl
@[simp] theorem setPc_vram (v : Word) (s : State) : (setPc v s).vram = s.vram := rfl
@[simp] theorem setPc_oam (v : Word) (s : State) : (setPc v s).oam = s.oam := rfl
@[simp] theorem setPc_cart (v : Word) (s : State) : (setPc v s).cart = s.cart := rfl
@[simp] theorem setPc_timing (v : Word) (s : State) : (setPc v s).timing = s.timing := rfl
@[simp] theorem setPc_control (v : Word) (s : State) : (setPc v s).control = s.control := rfl
@[simp] theorem setPc_cursors (v : Word) (s : State) : (setPc v s).cursors = s.cursors := rfl
@[simp] theorem setPc_cycles (v : Word) (s : State) : (setPc v s).cycles = s.cycles := rfl
@[simp] theorem setPc_cfg (v : Word) (s : State) : (setPc v s).cfg = s.cfg := rfl

@[simp] theorem setCycles_cpu (n : Nat) (s : State) : (setCycles n s).cpu = s.cpu := rfl
@[simp] theorem setCycles_pending (n : Nat) (s : State) : (setCycles n s).pending = s.pending := rfl
@[simp] theorem setCycles_fault (n : Nat) (s : State) : (setCycles n s).fault = s.fault := rfl
@[simp] theorem setCycles_paused (n : Nat) (s : State) : (setCycles n s).paused = s.paused := rfl
@[simp] theorem setCycles_ioSeq (n : Nat) (s : State) : (setCycles n s).ioSeq = s.ioSeq := rfl
@[simp] theorem setCycles_ram (n : Nat) (s : State) : (setCycles n s).ram = s.ram := rfl
@[simp] theorem setCycles_ppuReg (n : Nat) (s : State) : (setCycles n s).ppuReg = s.ppuReg := rfl
@[simp] theorem setCycles_vram (n : Nat) (s : State) : (setCycles n s).vram = s.vram := rfl
@[simp] theorem setCycles_oam (n : Nat) (s : State) : (setCycles n s).oam = s.oam := rfl
@[simp] theorem setCycles_cart (n : Nat) (s : State) : (setCycles n s).cart = s.cart := rfl
@[simp] theorem setCycles_timing (n : Nat) (s : State) : (setCycles n s).timing = s.timing := rfl
@[simp] theorem setCycles_control (n : Nat) (s : State) : (setCycles n s).control = s.control := rfl
@[simp] theorem setCycles_cursors (n : Nat) (s : State) : (setCycles n s).cursors = s.cursors := rfl
@[simp] theorem setCycles_cycles (n : Nat) (s : State) : (setCycles n s).cycles = n := rfl
@[simp] theorem setCycles_cfg (n : Nat) (s : State) : (setCycles n s).cfg = s.cfg := rfl

@[simp] theorem setCpu_cpu (c : Cpu) (s : State) : (setCpu c s).cpu = c := rfl
@[simp] theorem setCpu_pending (c : Cpu) (s : State) : (setCpu c s).pending = s.pending := rfl
@[simp] theorem setCpu_fault (c : Cpu) (s : State) : (setCpu c s).fault = s.fault := rfl
@[simp] theorem setCpu_paused (c : Cpu) (s : State) : (setCpu c s).paused = s.paused := rfl
@[simp] theorem setCpu_ioSeq (c : Cpu) (s : State) : (setCpu c s).ioSeq = s.ioSeq := rfl
@[simp] theorem setCpu_ram (c : Cpu) (s : State) : (setCpu c s).ram = s.ram := rfl
@[simp] theorem setCpu_ppuReg (c : Cpu) (s : State) : (setCpu c s).ppuReg = s.ppuReg := rfl
@[simp] theorem setCpu_vram (c : Cpu) (s : State) : (setCpu c s).vram = s.vram := rfl
@[simp] theorem setCpu_oam (c : Cpu) (s : State) : (setCpu c s).oam = s.oam := rfl
@[simp] theorem setCpu_cart (c : Cpu) (s : State) : (setCpu c s).cart = s.cart := rfl
@[simp] theorem setCpu_timing (c : Cpu) (s : State) : (setCpu c s).timing = s.timing := rfl
@[simp] theorem setCpu_control (c : Cpu) (s : State) : (setCpu c s).control = s.control := rfl
@[simp] theorem setCpu_cursors (c : Cpu) (s : State) : (setCpu c s).cursors = s.cursors := rfl
@[simp] theorem setCpu_cycles (c : Cpu) (s : State) : (setCpu c s).cycles = s.cycles := rfl
@[simp] theorem setCpu_cfg (c : Cpu) (s : State) : (setCpu c s).cfg = s.cfg := rfl

@[simp] theorem setPending_cpu (k : Option Interrupt) (s : State) : (setPending k s).cpu = s.cpu := rfl
@[simp] theorem setPending_pending (k : Option Interrupt) (s : State) : (setPending k s).pending = k := rfl
@[simp] theorem setPending_fault (k : Option Interrupt) (s : State) : (setPending k s).fault = s.fault := rfl
@[simp] theorem setPending_paused (k : Option Interrupt) (s : State) : (setPending k s).paused = s.paused := rfl
@[simp] theorem setPending_ioSeq (k : Option Interrupt) (s : State) : (setPending k s).ioSeq = s.ioSeq := rfl
@[simp] theorem setPending_ram (k : Option Interrupt) (s : State) : (setPending k s).ram = s.ram := rfl
@[simp] theorem setPending_ppuReg (k : Option Interrupt) (s : State) : (setPending k s).ppuReg = s.ppuReg := rfl
@[simp] theorem setPending_vram (k : Option Interrupt) (s : State) : (setPending k s).vram = s.vram := rfl
@[simp] theorem setPending_oam (k : Option Interrupt) (s : State) : (setPending k s).oam = s.oam := rfl
@[simp] theorem setPending_cart (k : Option Interrupt) (s : State) : (setPending k s).cart = s.cart := rfl
@[simp] theorem setPending_timing (k : Option Interrupt) (s : State) : (setPending k s).timing = s.timing := rfl
@[simp] theorem setPending_control (k : Option Interrupt) (s : State) : (setPending k s).control = s.control := rfl
@[simp] theorem setPending_cursors (k : Option Interrupt) (s : State) : (setPending k s).cursors = s.cursors := rfl
@[simp] theorem setPending_cycles (k : Option Interrupt) (s : State) : (setPending k s).cycles = s.cycles := rfl
@[simp] theorem setPending_cfg (k : Option Interrupt) (s : State) : (setPending k s).cfg = s.cfg := rfl

@[simp] theorem retire_a (l n : Nat) (s : State) : (retire l n s).cpu.a = s.cpu.a := rfl
@[simp] theorem retire_x (l n : Nat) (s : State) : (retire l n s).cpu.x = s.cpu.x := rfl
@[simp] theorem retire_y (l n : Nat) (s : State) : (retire l n s).cpu.y = s.cpu.y := rfl
@[simp] theorem retire_sp (l n : Nat) (s : State) : (retire l n s).cpu.sp = s.cpu.sp := rfl
@[simp] theorem retire_p (l n : Nat) (s : State) : (retire l n s).cpu.p = s.cpu.p := rfl
@[simp] theorem retire_pc (l n : Nat) (s : State) : (retire l n s).cpu.pc = s.cpu.pc + BitVec.ofNat 16 l := rfl
@[simp] theorem retire_pending (l n : Nat) (s : State) : (retire l n s).pending = s.pending := rfl
@[simp] theorem retire_fault (l n : Nat) (s : State) : (retire l n s).fault = s.fault := rfl
@[simp] theorem retire_paused (l n : Nat) (s : State) : (retire l n s).paused = s.paused := rfl
@[simp] theorem retire_ioSeq (l n : Nat) (s : State) : (retire l n s).ioSeq = s.ioSeq := rfl
@[simp] theorem retire_ram (l n : Nat) (s : State) : (retire l n s).ram = s.ram := rfl
@[simp] theorem retire_ppuReg (l n : Nat) (s : State) : (retire l n s).ppuReg = s.ppuReg := rfl
@[simp] theorem retire_vram (l n : Nat) (s : State) : (retire l n s).vram = s.vram := rfl
@[simp] theorem retire_oam (l n : Nat) (s : State) : (retire l n s).oam = s.oam := rfl
@[simp] theorem retire_cart (l n : Nat) (s : State) : (retire l n s).cart = s.cart := rfl
@[simp] theorem retire_timing (l n : Nat) (s : State) : (retire l n s).timing = s.timing := rfl
@[simp] theorem retire_control (l n : Nat) (s : State) : (retire l n s).control = s.control := rfl
@[simp] theorem retire_cursors (l n : Nat) (s : State) : (retire l n s).cursors = s.cursors := rfl
@[simp] theorem retire_cycles (l n : Nat) (s : State) : (retire l n s).cycles = n := rfl
@[simp] theorem retire_cfg (l n : Nat) (s : State) : (retire l n s).cfg = s.cfg := rfl

@[simp] theorem writePpuReg_cpu (i : Nat) (v : Byte) (s : State) : (writePpuReg i v s).cpu = s.cpu := rfl
@[simp] theorem writePpuReg_pending (i : Nat) (v : Byte) (s : State) : (writePpuReg i v s).pending = s.pending := rfl
@[simp] theorem writePpuReg_fault (i : Nat) (v : Byte) (s : State) : (writePpuReg i v s).fault = s.fault := rfl
@[simp] theorem writePpuReg_paused (i : Nat) (v : Byte) (s : State) : (writePpuReg i v s).paused = s.paused := rfl
@[simp] theorem writePpuReg_ioSeq (i : Nat) (v : Byte) (s : State) : (writePpuReg i v s).ioSeq = s.ioSeq := rfl
@[simp] theorem writePpuReg_ram (i : Nat) (v : Byte) (s : State) : (writePpuReg i v s).ram = s.ram := rfl
@[simp] theorem writePpuReg_ppuReg (i : Nat) (v : Byte) (s : State) : (writePpuReg i v s).ppuReg = Memory.write s.ppuReg i v := rfl
@[simp] theorem writePpuReg_vram (i : Nat) (v : Byte) (s : State) : (writePpuReg i v s).vram = s.vram := rfl
@[simp] theorem writePpuReg_oam (i : Nat) (v : Byte) (s : State) : (writePpuReg i v s).oam = s.oam := rfl
@[simp] theorem writePpuReg_cart (i : Nat) (v : Byte) (s : State) : (writePpuReg i v s).cart = s.cart := rfl
@[simp] theorem writePpuReg_timing (i : Nat) (v : Byte) (s : State) : (writePpuReg i v s).timing = s.timing := rfl
@[simp] theorem writePpuReg_control (i : Nat) (v : Byte) (s : State) : (writePpuReg i v s).control = s.control := rfl
@[simp] theorem writePpuReg_cursors (i : Nat) (v : Byte) (s : State) : (writePpuReg i v s).cursors = s.cursors := rfl
@[simp] theorem writePpuReg_cycles (i : Nat) (v : Byte) (s : State) : (writePpuReg i v s).cycles = s.cycles := rfl
@[simp] theorem writePpuReg_cfg (i : Nat) (v : Byte) (s : State) : (writePpuReg i v s).cfg = s.cfg := rfl

@[simp] theorem advanceVramPtr_cpu (s : State) : (advanceVramPtr s).cpu = s.cpu := rfl
@[simp] theorem advanceVramPtr_pending (s : State) : (advanceVramPtr s).pending = s.pending := rfl
@[simp] theorem advanceVramPtr_fault (s : State) : (advanceVramPtr s).fault = s.fault := rfl
@[simp] theorem advanceVramPtr_paused (s : State) : (advanceVramPtr s).paused = s.paused := rfl
@[simp] theorem advanceVramPtr_ioSeq (s : State) : (advanceVramPtr s).ioSeq = s.ioSeq := rfl
@[simp] theorem advanceVramPtr_ram (s : State) : (advanceVramPtr s).ram = s.ram := rfl
@[simp] theorem advanceVramPtr_ppuReg (s : State) : (advanceVramPtr s).ppuReg = s.ppuReg := rfl
@[simp] theorem advanceVramPtr_vram (s : State) : (advanceVramPtr s).vram = s.vram := rfl
@[simp] theorem advanceVramPtr_oam (s : State) : (advanceVramPtr s).oam = s.oam := rfl
@[simp] theorem advanceVramPtr_cart (s : State) : (advanceVramPtr s).cart = s.cart := rfl
@[simp] theorem advanceVramPtr_timing (s : State) : (advanceVramPtr s).timing = s.timing := rfl
@[simp] theorem advanceVramPtr_control (s : State) : (advanceVramPtr s).control = s.control := rfl
@[simp] theorem advanceVramPtr_cycles (s : State) : (advanceVramPtr s).cycles = s.cycles := rfl
@[simp] theorem advanceVramPtr_cfg (s : State) : (advanceVramPtr s).cfg = s.cfg := rfl
@[simp] theorem advanceVramPtr_vramPtr (s : State) :
    (advanceVramPtr s).cursors.vramPtr = s.cursors.vramPtr + incrementValue s.control.increment := rfl

@[simp] theorem vramWrite_cpu (a : Word) (v : Byte) (s : State) : (vramWrite a v s).cpu = s.cpu := rfl
@[simp] theorem vramWrite_pending (a : Word) (v : Byte) (s : State) : (vramWrite a v s).pending = s.pending := rfl
@[simp] theorem vramWrite_fault (a : Word) (v : Byte) (s : State) : (vramWrite a v s).fault = s.fault := rfl
@[simp] theorem vramWrite_paused (a : Word) (v : Byte) (s : State) : (vramWrite a v s).paused = s.paused := rfl
@[simp] theorem vramWrite_ioSeq (a : Word) (v : Byte) (s : State) : (vramWrite a v s).ioSeq = s.ioSeq := rfl
@[simp] theorem vramWrite_ram (a : Word) (v : Byte) (s : State) : (vramWrite a v s).ram = s.ram := rfl
@[simp] theorem vramWrite_ppuReg (a : Word) (v : Byte) (s : State) : (vramWrite a v s).ppuReg = s.ppuReg := rfl
@[simp] theorem vramWrite_oam (a : Word) (v : Byte) (s : State) : (vramWrite a v s).oam = s.oam := rfl
@[simp] theorem vramWrite_cart (a : Word) (v : Byte) (s : State) : (vramWrite a v s).cart = s.cart := rfl
@[simp] theorem vramWrite_timing (a : Word) (v : Byte) (s : State) : (vramWrite a v s).timing = s.timing := rfl
@[simp] theorem vramWrite_control (a : Word) (v : Byte) (s : State) : (vramWrite a v s).control = s.control := rfl
@[simp] theorem vramWrite_cursors (a : Word) (v : Byte) (s : State) : (vramWrite a v s).cursors = s.cursors := rfl
@[simp] theorem vramWrite_cycles (a : Word) (v : Byte) (s : State) : (vramWrite a v s).cycles = s.cycles := rfl
@[simp] theorem vramWrite_cfg (a : Word) (v : Byte) (s : State) : (vramWrite a v s).cfg = s.cfg := rfl

@[simp] theorem faulted_cpu (r : FaultRecord) (s t : State) : (faulted r s t).cpu = s.cpu := rfl
@[simp] theorem faulted_pending (r : FaultRecord) (s t : State) : (faulted r s t).pending = t.pending := rfl
@[simp] theorem faulted_fault (r : FaultRecord) (s t : State) : (faulted r s t).fault = some r := rfl
@[simp] theorem faulted_paused (r : FaultRecord) (s t : State) : (faulted r s t).paused = t.paused := rfl
@[simp] theorem faulted_ioSeq (r : FaultRecord) (s t : State) : (faulted r s t).ioSeq = t.ioSeq := rfl
@[simp] theorem faulted_ram (r : FaultRecord) (s t : State) : (faulted r s t).ram = t.ram := rfl
@[simp] theorem faulted_ppuReg (r : FaultRecord) (s t : State) : (faulted r s t).ppuReg = t.ppuReg := rfl
@[simp] theorem faulted_vram (r : FaultRecord) (s t : State) : (faulted r s t).vram = t.vram := rfl
@[simp] theorem faulted_oam (r : FaultRecord) (s t : State) : (faulted r s t).oam = t.oam := rfl
@[simp] theorem faulted_cart (r : FaultRecord) (s t : State) : (faulted r s t).cart = t.cart := rfl
@[simp] theorem faulted_timing (r : FaultRecord) (s t : State) : (faulted r s t).timing = t.timing := rfl
@[simp] theorem faulted_control (r : FaultRecord) (s t : State) : (faulted r s t).control = t.control := rfl
@[simp] theorem faulted_cursors (r : FaultRecord) (s t : State) : (faulted r s t).cursors = t.cursors := rfl
@[simp] theorem faulted_cycles (r : FaultRecord) (s t : State) : (faulted r s t).cycles = 0 := rfl
@[simp] theorem faulted_cfg (r : FaultRecord) (s t : State) : (faulted r s t).cfg = t.cfg := rfl

@[simp] theorem requestInterrupt_cpu (k : Interrupt) (s : State) : (requestInterrupt k s).cpu = s.cpu := rfl
@[simp] theorem requestInterrupt_pending (k : Interrupt) (s : State) : (requestInterrupt k s).pending = upgrade k s.pending := rfl
@[simp] theorem requestInterrupt_fault (k : Interrupt) (s : State) : (requestInterrupt k s).fault = s.fault := rfl
@[simp] theorem requestInterrupt_paused (k : Interrupt) (s : State) : (requestInterrupt k s).paused = s.paused := rfl
@[simp] theorem requestInterrupt_ioSeq (k : Interrupt) (s : State) : (requestInterrupt k s).ioSeq = s.ioSeq := rfl
@[simp] theorem requestInterrupt_ram (k : Interrupt) (s : State) : (requestInterrupt k s).ram = s.ram := rfl
@[simp] theorem requestInterrupt_ppuReg (k : Interrupt) (s : State) : (requestInterrupt k s).ppuReg = s.ppuReg := rfl
@[simp] theorem requestInterrupt_vram (k : Interrupt) (s : State) : (requestInterrupt k s).vram = s.vram := rfl
@[simp] theorem requestInterrupt_oam (k : Interrupt) (s : State) : (requestInterrupt k s).oam = s.oam := rfl
@[simp] theorem requestInterrupt_cart (k : Interrupt) (s : State) : (requestInterrupt k s).cart = s.cart := rfl
@[simp] theorem requestInterrupt_timing (k : Interrupt) (s : State) : (requestInterrupt k s).timing = s.timing := rfl
@[simp] theorem requestInterrupt_control (k : Interrupt) (s : State) : (requestInterrupt k s).control = s.control := rfl
@[simp] theorem requestInterrupt_cursors (k : Interrupt) (s : State) : (requestInterrupt k s).cursors = s.cursors := rfl
@[simp] theorem requestInterrupt_cycles (k : Interrupt) (s : State) : (requestInterrupt k s).cycles = s.cycles := rfl
@[simp] theorem requestInterrupt_cfg (k : Interrupt) (s : State) : (requestInterrupt k s).cfg = s.cfg := rfl

end Sys2Proof.Machine
end

