-- ==== Sys2Proof/Laws/Bus.lean ====
section
/-! SUPPORT. What the bus operations can do: the frame of every access, the memories' canonical form, and
the values of the accesses that have no side effect. -/

namespace Sys2Proof.Machine

open Sys2Proof

/-! ## Sequencing -/

@[simp] theorem Res.andThen_ok {α β : Type} (v : α) (s : State) (k : α → State → Res β) :
    (Res.ok v s).andThen k = k v s := rfl

@[simp] theorem Res.andThen_err {α β : Type} (f : FaultRecord) (s : State) (k : α → State → Res β) :
    (Res.err f s : Res α).andThen k = .err f s := rfl

@[simp] theorem Res.after_ok {α : Type} (v : α) (s : State) : (Res.ok v s).after = s := rfl

@[simp] theorem Res.after_err {α : Type} (f : FaultRecord) (s : State) :
    (Res.err f s : Res α).after = s := rfl

theorem Res.andThen_eq_ok {α β : Type} {r : Res α} {k : α → State → Res β} {v : β} {t : State}
    (h : r.andThen k = .ok v t) : ∃ u m, r = .ok u m ∧ k u m = .ok v t := by
  cases r with
  | ok u m => exact ⟨u, m, rfl, h⟩
  | err f m => cases h

theorem Res.andThen_eq_err {α β : Type} {r : Res α} {k : α → State → Res β} {f : FaultRecord}
    {t : State} (h : r.andThen k = .err f t) :
    r = .err f t ∨ ∃ u m, r = .ok u m ∧ k u m = .err f t := by
  cases r with
  | ok u m => exact .inr ⟨u, m, rfl, h⟩
  | err g m => exact .inl (by simpa using h)

/-- A property of the state that both parts of a sequence keep, the sequence keeps. -/
theorem Res.andThen_after {α β : Type} {P : State → Prop} {r : Res α} {k : α → State → Res β}
    (hr : P r.after) (hk : ∀ u m, r = .ok u m → P (k u m).after) : P (r.andThen k).after := by
  cases r with
  | ok u m => exact hk u m rfl
  | err f m => exact hr

/-! ## Frames -/

theorem AccessFrame.refl (s : State) : AccessFrame s s := ⟨rfl, rfl, rfl, rfl, rfl, rfl, rfl, rfl⟩

theorem AccessFrame.trans {s t u : State} (h : AccessFrame s t) (g : AccessFrame t u) :
    AccessFrame s u :=
  ⟨g.cpu.trans h.cpu, g.pending.trans h.pending, g.fault.trans h.fault, g.paused.trans h.paused,
    g.cart.trans h.cart, g.timing.trans h.timing, g.cycles.trans h.cycles, g.cfg.trans h.cfg⟩

theorem readCell_frame (a : Word) (s : State) : AccessFrame s (readCell a s).after := by
  unfold readCell
  split <;> constructor <;> rfl

theorem notifyRead_frame (i : Nat) (v : Byte) (s : State) : AccessFrame s (notifyRead i v s) := by
  unfold notifyRead
  split
  · constructor <;> rfl
  · unfold onRead2007
    split <;> constructor <;> rfl
  · exact AccessFrame.refl s

theorem notifyWrite_frame (i : Nat) (v : Byte) (s : State) : AccessFrame s (notifyWrite i v s) := by
  unfold notifyWrite
  split
  case h_5 =>
    unfold onWrite2006
    split <;> constructor <;> rfl
  all_goals constructor <;> rfl

theorem dmaCopy_frame (v : Byte) (n i : Nat) (s : State) :
    AccessFrame s (dmaCopy v n i s).after := by
  induction n generalizing i s with
  | zero => exact AccessFrame.refl s
  | succ n ih =>
    refine Res.andThen_after (P := AccessFrame s) (readCell_frame _ _) fun b t ht => ?_
    have h : AccessFrame s t := by simpa [ht] using readCell_frame (joinBytes v (BitVec.ofNat 8 i)) s
    have h' : AccessFrame t { t with oam := Memory.write t.oam i b } := by constructor <;> rfl
    exact (h.trans h').trans (ih _ _)

/-- `Read8` changes no register, no PPU counter, no interrupt and no parameter. -/
theorem read8_frame (a : Word) (s : State) : AccessFrame s (read8 a s).after := by
  refine Res.andThen_after (P := AccessFrame s) (readCell_frame _ _) fun v t ht => ?_
  have h : AccessFrame s t := by simpa [ht] using readCell_frame a s
  split
  · exact h.trans (notifyRead_frame _ _ _)
  · exact h

/-- `Write8` changes no register, no PPU counter, no interrupt and no parameter. -/
theorem write8_frame (a : Word) (v : Byte) (s : State) : AccessFrame s (write8 a v s).after := by
  unfold write8
  split
  · constructor <;> rfl
  · exact AccessFrame.trans (by constructor <;> rfl) (notifyWrite_frame _ _ _)
  · split
    · exact dmaCopy_frame _ _ _ _
    · exact AccessFrame.refl s
  · split <;> exact AccessFrame.refl s
  · exact AccessFrame.refl s

theorem read8_ok_frame {a : Word} {v : Byte} {s t : State} (h : read8 a s = .ok v t) :
    AccessFrame s t := by
  simpa [h] using read8_frame a s

theorem write8_ok_frame {a : Word} {v : Byte} {u : Unit} {s t : State}
    (h : write8 a v s = .ok u t) : AccessFrame s t := by
  simpa [h] using write8_frame a v s

theorem read16_frame (a : Word) (s : State) : AccessFrame s (read16 a s).after := by
  refine Res.andThen_after (P := AccessFrame s) (read8_frame _ _) fun v t ht => ?_
  have h := read8_ok_frame ht
  refine Res.andThen_after (P := AccessFrame s) (h.trans (read8_frame _ _)) fun w u hu => ?_
  exact h.trans (read8_ok_frame hu)

/-! ## The decode map -/

theorem regionOf_ram {a : Word} (h : a.toNat < 0x2000) : regionOf a = .ram (a.toNat % 0x0800) := by
  simp [regionOf, h]

theorem regionOf_ppuReg {a : Word} (h : 0x2000 ≤ a.toNat) (h' : a.toNat < 0x2008) :
    regionOf a = .ppuReg (a.toNat - 0x2000) := by
  simp [regionOf, h', Nat.not_lt.2 h]

theorem regionOf_io {a : Word} (h : 0x4000 ≤ a.toNat) (h' : a.toNat < 0x4020) :
    regionOf a = .io := by
  have h1 : ¬a.toNat < 0x2000 := by omega
  have h2 : ¬a.toNat < 0x2008 := by omega
  simp [regionOf, h', Nat.not_lt.2 h, h1, h2]

theorem regionOf_prg {a : Word} (h : 0x8000 ≤ a.toNat) : regionOf a = .prg (a.toNat - 0x8000) := by
  have h1 : ¬a.toNat < 0x2000 := by omega
  have h2 : ¬a.toNat < 0x2008 := by omega
  have h3 : ¬a.toNat < 0x4000 := by omega
  have h4 : ¬a.toNat < 0x4020 := by omega
  simp [regionOf, Nat.not_lt.2 h, h1, h2, h3, h4]

/-- The decode map leaves exactly the unmapped addresses without a region (R45). -/
theorem regionOf_unmapped {a : Word} : regionOf a = .unmapped ↔ Unmapped a := by
  unfold regionOf Unmapped
  split
  · exact ⟨fun h => Region.noConfusion h, fun h => by omega⟩
  split
  · exact ⟨fun h => Region.noConfusion h, fun h => by omega⟩
  split
  · exact ⟨fun _ => by omega, fun _ => rfl⟩
  split
  · exact ⟨fun h => Region.noConfusion h, fun h => by omega⟩
  split
  · exact ⟨fun _ => by omega, fun _ => rfl⟩
  · exact ⟨fun h => Region.noConfusion h, fun h => by omega⟩

theorem regionOf_ram_lt {a : Word} {i : Nat} (h : regionOf a = .ram i) : i < 2048 := by
  unfold regionOf at h
  repeat' split at h
  all_goals cases h
  exact Nat.mod_lt _ (by decide)

theorem regionOf_ppuReg_lt {a : Word} {i : Nat} (h : regionOf a = .ppuReg i) : i < 8 := by
  unfold regionOf at h
  repeat' split at h
  all_goals first
    | (injection h; done)
    | (injection h with h; omega)

/-! ## Accesses without a side effect -/

theorem read8_ram {a : Word} (h : a.toNat < 0x2000) (s : State) :
    read8 a s = .ok (Memory.read s.ram (a.toNat % 0x0800)) s := by
  simp [read8, readCell, regionOf_ram h]

theorem read8_prg {a : Word} (h : 0x8000 ≤ a.toNat) (s : State) :
    read8 a s = .ok (prgByte s.cart (a.toNat - 0x8000)) s := by
  simp [read8, readCell, regionOf_prg h]

theorem read8_unmapped {a : Word} (h : Unmapped a) (s : State) :
    read8 a s = .err (.addressOutOfRange a .read) s := by
  simp [read8, readCell, regionOf_unmapped.2 h]

/-- A read faults only at an unmapped address, and then it has no effect. -/
theorem read8_err {a : Word} {s t : State} {f : FaultRecord} (h : read8 a s = .err f t) :
    Unmapped a ∧ f = .addressOutOfRange a .read ∧ t = s := by
  unfold read8 at h
  rcases Res.andThen_eq_err h with h | ⟨v, m, hm, h⟩
  · unfold readCell at h
    split at h
    all_goals cases h
    exact ⟨regionOf_unmapped.1 ‹_›, rfl, rfl⟩
  · split at h <;> cases h

theorem read8_ppuReg {a : Word} (h : 0x2000 ≤ a.toNat) (h' : a.toNat < 0x2008) (s : State) :
    read8 a s = .ok (Memory.read s.ppuReg (a.toNat - 0x2000))
      (notifyRead (a.toNat - 0x2000) (Memory.read s.ppuReg (a.toNat - 0x2000)) s) := by
  simp only [read8, readCell, regionOf_ppuReg h h', Res.andThen_ok]

theorem read8_io {a : Word} (h : 0x4000 ≤ a.toNat) (h' : a.toNat < 0x4020) (s : State) :
    read8 a s = .ok (Config.ioRead s.ioSeq a) { s with ioSeq := s.ioSeq + 1 } := by
  simp only [read8, readCell, regionOf_io h h', Res.andThen_ok]

theorem write8_ppuReg {a : Word} (h : 0x2000 ≤ a.toNat) (h' : a.toNat < 0x2008) (v : Byte)
    (s : State) : write8 a v s =
      .ok () (notifyWrite (a.toNat - 0x2000) v (writePpuReg (a.toNat - 0x2000) v s)) := by
  simp only [write8, regionOf_ppuReg h h']

theorem write8_io {a : Word} (h : 0x4000 ≤ a.toNat) (h' : a.toNat < 0x4020) (v : Byte) (s : State) :
    write8 a v s = if a = 0x4014#16 then onWrite4014 v s else .ok () s := by
  simp only [write8, regionOf_io h h']

theorem write8_unmapped {a : Word} (h : Unmapped a) (v : Byte) (s : State) :
    write8 a v s = .err (.addressOutOfRange a .write) s := by
  simp only [write8, regionOf_unmapped.2 h]

theorem write8_ram {a : Word} (h : a.toNat < 0x2000) (v : Byte) (s : State) :
    write8 a v s = .ok () { s with ram := Memory.write s.ram (a.toNat % 0x0800) v } := by
  simp [write8, regionOf_ram h]

theorem toNat_joinBytes (hi lo : Byte) : (joinBytes hi lo).toNat = hi.toNat * 256 + lo.toNat := by
  have h : (joinBytes hi lo).toNat = (hi ++ lo).toNat := rfl
  rw [h, BitVec.toNat_append, Nat.shiftLeft_eq]
  have := lo.isLt
  rw [show (2 : Nat) ^ 8 = 256 from rfl] at *
  rw [Nat.mul_comm, show (256 : Nat) = 2 ^ 8 from rfl, ← Nat.two_pow_add_eq_or_of_lt this]

theorem toNat_zext16 (n : Byte) : (zext16 n).toNat = n.toNat := by
  have := n.isLt
  simp [zext16]
  omega

theorem joinBytes_split (w : Word) : joinBytes (highByte w) (lowByte w) = w := by
  apply BitVec.eq_of_toNat_eq
  rw [toNat_joinBytes]
  simp only [highByte, lowByte, BitVec.extractLsb'_toNat, Nat.shiftRight_eq_div_pow]
  have := w.isLt
  omega

@[simp] theorem highByte_joinBytes (hi lo : Byte) : highByte (joinBytes hi lo) = hi := by
  apply BitVec.eq_of_toNat_eq
  simp only [highByte, BitVec.extractLsb'_toNat, toNat_joinBytes, Nat.shiftRight_eq_div_pow]
  have := hi.isLt
  have := lo.isLt
  omega

@[simp] theorem lowByte_joinBytes (hi lo : Byte) : lowByte (joinBytes hi lo) = lo := by
  apply BitVec.eq_of_toNat_eq
  simp only [lowByte, BitVec.extractLsb'_toNat, toNat_joinBytes, Nat.shiftRight_eq_div_pow]
  have := hi.isLt
  have := lo.isLt
  omega

theorem toNat_stackAddr (sp : Byte) : (stackAddr sp).toNat = 0x0100 + sp.toNat := by
  rw [stackAddr, toNat_joinBytes]
  rfl

theorem read8_zeroPage (n : Byte) (s : State) :
    read8 (zext16 n) s = .ok (zeroPageByte s n) s := by
  have := n.isLt
  rw [read8_ram (by rw [toNat_zext16]; omega), toNat_zext16, Nat.mod_eq_of_lt (by omega)]
  rfl

/-- The stack page lies in RAM (R57): a push stores and lowers S, and never faults. -/
theorem push_eq (v : Byte) (s : State) :
    push v s = .ok () (setSp (s.cpu.sp - 1#8) { s with ram := pushed s.ram s.cpu.sp v }) := by
  have := s.cpu.sp.isLt
  unfold push
  rw [write8_ram (by rw [toNat_stackAddr]; omega), toNat_stackAddr, Nat.mod_eq_of_lt (by omega)]
  rfl

/-- A pull raises S and loads, and never faults (R57). -/
theorem pull_eq (s : State) :
    pull s = .ok (stackByte s (s.cpu.sp + 1#8)) (setSp (s.cpu.sp + 1#8) s) := by
  have := (s.cpu.sp + 1#8).isLt
  unfold pull
  simp only [setSp_sp]
  rw [read8_ram (by rw [toNat_stackAddr]; omega), toNat_stackAddr, Nat.mod_eq_of_lt (by omega)]
  rfl

theorem push16_eq (w : Word) (s : State) :
    push16 w s = .ok () (setSp (s.cpu.sp - 1#8 - 1#8)
      { s with ram := pushed (pushed s.ram s.cpu.sp (highByte w)) (s.cpu.sp - 1#8) (lowByte w) }) := by
  unfold push16
  rw [push_eq, Res.andThen_ok, push_eq]
  rfl

theorem pull16_eq (s : State) :
    pull16 s = .ok (joinBytes (stackByte s (s.cpu.sp + 1#8 + 1#8)) (stackByte s (s.cpu.sp + 1#8)))
      (setSp (s.cpu.sp + 1#8 + 1#8) s) := by
  unfold pull16
  rw [pull_eq, Res.andThen_ok, pull_eq]
  rfl

theorem readPointer_eq (n : Byte) (s : State) :
    readPointer n s = .ok (zeroPagePointer s n) s := by
  unfold readPointer
  rw [read8_zeroPage, Res.andThen_ok, read8_zeroPage]
  rfl

/-- Computing an effective address never faults and changes nothing (R81 to R88). -/
theorem effAddr_eq (p : Place) (s : State) : effAddr p s = .ok (placeEff p s) s := by
  cases p <;> simp [effAddr, placeEff, readPointer_eq]

theorem read16_prg {a : Word} (h : 0x8000 ≤ a.toNat) (h' : a.toNat ≤ 0xFFFE) (s : State) :
    read16 a s = .ok (prgWord s.cart a) s := by
  have h1 : (a + 1#16).toNat = a.toNat + 1 := by
    rw [BitVec.toNat_add]
    simp
    omega
  unfold read16
  rw [read8_prg h, Res.andThen_ok, read8_prg (by omega), h1]
  simp only [Res.andThen_ok, prgWord]
  rw [show a.toNat + 1 - 0x8000 = a.toNat - 0x7FFF by omega]

/-- Taking an exception (R151, R170), for a vector in the PRG window: three pushes, I set, PC from the
vector; it never faults. -/
theorem enterHandler_eq (ret : Word) (status : Byte) {vector : Word} (h : 0x8000 ≤ vector.toNat)
    (h' : vector.toNat ≤ 0xFFFE) (s : State) :
    enterHandler ret status vector s = .ok ()
      { s with
        ram := pushed (pushed (pushed s.ram s.cpu.sp (highByte ret)) (s.cpu.sp - 1#8) (lowByte ret))
          (s.cpu.sp - 1#8 - 1#8) status
        cpu := { s.cpu with
          sp := s.cpu.sp - 1#8 - 1#8 - 1#8, p := setFlag .i true s.cpu.p,
          pc := prgWord s.cart vector } } := by
  unfold enterHandler
  rw [push16_eq, Res.andThen_ok, push_eq, Res.andThen_ok, read16_prg h h']
  rfl

theorem returnFromInterrupt_eq (s : State) :
    returnFromInterrupt s = .ok ()
      { s with cpu := { s.cpu with
          p := pulledStatus s.cfg (stackByte s (s.cpu.sp + 1#8))
          sp := s.cpu.sp + 1#8 + 1#8 + 1#8
          pc := joinBytes (stackByte s (s.cpu.sp + 1#8 + 1#8 + 1#8))
            (stackByte s (s.cpu.sp + 1#8 + 1#8)) } } := by
  unfold returnFromInterrupt
  rw [pull_eq, Res.andThen_ok, pull16_eq]
  rfl

theorem vectorOf_prg (k : Interrupt) : 0x8000 ≤ (vectorOf k).toNat ∧ (vectorOf k).toNat ≤ 0xFFFE := by
  cases k <;> decide

/-- Interrupt service cannot fault (R164). -/
theorem service_ok (k : Interrupt) (s : State) : ∃ t, service k s = .ok () t := by
  obtain ⟨h, h'⟩ := vectorOf_prg k
  unfold service enterService
  split
  · unfold enterResetNmos
    dsimp only
    rw [read16_prg (vectorOf_prg .reset).1 (vectorOf_prg .reset).2]
    exact ⟨_, rfl⟩
  · rw [enterHandler_eq _ _ h h']
    exact ⟨_, rfl⟩

end Sys2Proof.Machine
end

