-- ==== Sys2Proof/Laws/Classes.lean ====
section
/-! SUPPORT. What each shared operation of an instruction can do: the accesses that complete and those that
fault, and the access classes (R91) as one access followed by a next state or a fault. -/

namespace Sys2Proof.Machine

open Sys2Proof

/-! ## Accesses that complete -/

theorem readCell_mapped {a : Word} (h : ¬Unmapped a) (s : State) :
    ∃ v t, readCell a s = .ok v t := by
  unfold readCell
  split
  · exact ⟨_, _, rfl⟩
  · exact ⟨_, _, rfl⟩
  · exact ⟨_, _, rfl⟩
  · exact ⟨_, _, rfl⟩
  · exact absurd (regionOf_unmapped.1 ‹_›) h

/-- A read of a mapped address completes. -/
theorem read8_mapped {a : Word} (h : ¬Unmapped a) (s : State) : ∃ v t, read8 a s = .ok v t := by
  obtain ⟨v, t, ht⟩ := readCell_mapped h s
  unfold read8
  rw [ht, Res.andThen_ok]
  split <;> exact ⟨_, _, rfl⟩

/-- A sequence of cell copies from a readable page completes. -/
theorem dmaCopy_completes (v : Byte) (n i : Nat) (s : State)
    (h : ∀ k, i ≤ k → k < i + n → ¬Unmapped (joinBytes v (BitVec.ofNat 8 k))) :
    ∃ t, dmaCopy v n i s = .ok () t := by
  induction n generalizing i s with
  | zero => exact ⟨s, rfl⟩
  | succ n ih =>
    obtain ⟨b, t, ht⟩ := readCell_mapped (h i (Nat.le_refl i) (by omega)) s
    unfold dmaCopy
    rw [ht, Res.andThen_ok]
    exact ih (i + 1) _ fun k hk hk' => h k (by omega) (by omega)

theorem dmaCopy_err {v : Byte} {n i : Nat} {s t : State} {f : FaultRecord}
    (h : dmaCopy v n i s = .err f t) : ∃ a, f = .addressOutOfRange a .read ∧ Unmapped a := by
  induction n generalizing i s with
  | zero => cases h
  | succ n ih =>
    unfold dmaCopy at h
    rcases Res.andThen_eq_err h with h | ⟨b, m, hm, h⟩
    · unfold readCell at h
      split at h
      all_goals cases h
      exact ⟨_, rfl, regionOf_unmapped.1 ‹_›⟩
    · exact ih h

theorem unmapped_page {v : Byte} (h : v.toNat < 0x20 ∨ 0x80 ≤ v.toNat) (k : Byte) :
    ¬Unmapped (joinBytes v k) := by
  have := v.isLt
  have := k.isLt
  unfold Unmapped
  rw [toNat_joinBytes]
  omega

theorem dmaCopy_page {v : Byte} (h : v.toNat < 0x20 ∨ 0x80 ≤ v.toNat) (s : State) :
    ∃ t, onWrite4014 v s = .ok () t :=
  dmaCopy_completes v 256 0 s fun _ _ _ => unmapped_page h _

/-- A copy that meets an unmapped address faults. -/
theorem dmaCopy_faults {v : Byte} {n i : Nat} {s : State}
    (h : ∃ k, i ≤ k ∧ k < i + n ∧ Unmapped (joinBytes v (BitVec.ofNat 8 k))) :
    ∃ f t, dmaCopy v n i s = .err f t := by
  induction n generalizing i s with
  | zero => obtain ⟨k, h1, h2, -⟩ := h; omega
  | succ n ih =>
    obtain ⟨k, h1, h2, hk⟩ := h
    unfold dmaCopy
    by_cases hi : k = i
    · subst hi
      refine ⟨.addressOutOfRange (joinBytes v (BitVec.ofNat 8 k)) .read, s, ?_⟩
      simp only [readCell, regionOf_unmapped.2 hk]
      rfl
    · cases hc : readCell (joinBytes v (BitVec.ofNat 8 i)) s with
      | ok b t => exact ih ⟨k, by omega, by omega, hk⟩
      | err f t => exact ⟨f, t, rfl⟩

theorem onWrite4014_faults {v : Byte} (h : ¬(v.toNat < 0x20 ∨ 0x80 ≤ v.toNat)) (s : State) :
    ∃ f t, onWrite4014 v s = .err f t := by
  refine dmaCopy_faults ⟨0x20, by omega, by omega, ?_⟩
  unfold Unmapped
  rw [toNat_joinBytes, BitVec.toNat_ofNat]
  omega

theorem regionOf_io_iff {a : Word} : regionOf a = .io ↔ 0x4000 ≤ a.toNat ∧ a.toNat < 0x4020 := by
  constructor
  · intro h
    unfold regionOf at h
    repeat' split at h
    all_goals first
      | (injection h; done)
      | omega
  · exact fun h => regionOf_io h.1 h.2

theorem regionOf_prg_le {a : Word} {i : Nat} (h : regionOf a = .prg i) : 0x8000 ≤ a.toNat := by
  unfold regionOf at h
  repeat' split at h
  all_goals first
    | (injection h; done)
    | omega

/-- A write completes exactly where `Writable` says. -/
theorem write8_writable {a : Word} {v : Byte} {s : State} (h : Writable s.cfg a v) :
    ∃ t, write8 a v s = .ok () t := by
  obtain ⟨hm, hp, hd⟩ := h
  unfold write8
  split
  · exact ⟨_, rfl⟩
  · exact ⟨_, rfl⟩
  · split
    · exact dmaCopy_page (hd ‹_›) s
    · exact ⟨_, rfl⟩
  · rw [hp (regionOf_prg_le ‹_›)]
    exact ⟨_, rfl⟩
  · exact absurd (regionOf_unmapped.1 ‹_›) hm

theorem write8_not_writable {a : Word} {v : Byte} {s : State} (h : ¬Writable s.cfg a v) :
    ∃ f t, write8 a v s = .err f t := by
  by_cases hm : Unmapped a
  · exact ⟨.addressOutOfRange a .write, s, by simp [write8, regionOf_unmapped.2 hm]⟩
  by_cases hp : 0x8000 ≤ a.toNat
  · cases hr : s.cfg.romWriteMode with
    | fault => exact ⟨.addressOutOfRange a .write, s, by simp [write8, regionOf_prg hp, hr]⟩
    | ignore =>
      refine absurd ⟨hm, fun _ => hr, fun h4 => ?_⟩ h
      subst h4
      exact absurd hp (by decide)
  · by_cases h4 : a = 0x4014#16
    · subst h4
      have : ¬(v.toNat < 0x20 ∨ 0x80 ≤ v.toNat) := fun hv => h ⟨hm, fun h8 => absurd h8 hp, fun _ => hv⟩
      obtain ⟨f, t, ht⟩ := onWrite4014_faults this s
      exact ⟨f, t, by simpa [write8, regionOf_io (a := 0x4014#16) (by decide) (by decide)] using ht⟩
    · exact absurd ⟨hm, fun h8 => absurd h8 hp, fun h4' => absurd h4' h4⟩ h

/-- The faults of a write (R162). -/
theorem write8_err {a : Word} {v : Byte} {s t : State} {f : FaultRecord}
    (h : write8 a v s = .err f t) :
    (∃ b, f = .addressOutOfRange b .read ∧ Unmapped b) ∨
    (f = .addressOutOfRange a .write ∧
      (Unmapped a ∨ (0x8000 ≤ a.toNat ∧ s.cfg.romWriteMode = .fault))) := by
  unfold write8 at h
  split at h
  · cases h
  · cases h
  · split at h
    · exact .inl (dmaCopy_err h)
    · cases h
  · split at h
    · cases h
      exact .inr ⟨rfl, .inr ⟨regionOf_prg_le ‹_›, ‹_›⟩⟩
    · cases h
  · cases h
    exact .inr ⟨rfl, .inl (regionOf_unmapped.1 ‹_›)⟩

/-! ## The access classes -/

theorem readSource_eq (src : Source) (s : State) :
    readSource src s = (sourceRead src s).andThen fun v t =>
      .ok { value := v, crossed := sourceCrossed src s } t := by
  cases src with
  | imm n => rfl
  | mem p => simp [readSource, sourceRead, sourceCrossed, effAddr_eq]

theorem sourceRead_frame {src : Source} {s t : State} {v : Byte} (h : sourceRead src s = .ok v t) :
    AccessFrame s t := by
  cases src with
  | imm n => cases h; exact AccessFrame.refl s
  | mem p => exact read8_ok_frame h

theorem sourceRead_readable {src : Source} {s : State} (h : src.readable s) :
    ∃ v t, sourceRead src s = .ok v t := by
  cases src with
  | imm n => exact ⟨_, _, rfl⟩
  | mem p => exact read8_mapped h s

/-- A read-class instruction whose operand is read. -/
theorem readClass_ok {src : Source} {op : Config → Byte → Cpu → Cpu} {s t : State} {v : Byte}
    (h : sourceRead src s = .ok v t) :
    readClass src op s = .next (retire (sourceLength src)
      (readCost src + crossPenalty s.cfg (sourceCrossed src s)) (setCpu (op s.cfg v s.cpu) t)) := by
  have hf := sourceRead_frame h
  simp only [readClass, readSource_eq, h, Res.andThen_ok, finish, hf.cfg, hf.cpu]

/-- A read-class instruction whose operand is not. -/
theorem readClass_err {src : Source} {op : Config → Byte → Cpu → Cpu} {s t : State} {f : FaultRecord}
    (h : sourceRead src s = .err f t) : readClass src op s = .fault (raise f (faulted f s t)) := by
  simp only [readClass, readSource_eq, h, Res.andThen_err, finish]

theorem writeClass_ok {p : Place} {value : Cpu → Byte} {s t : State}
    (h : write8 (placeEff p s).addr (value s.cpu) s = .ok () t) :
    writeClass p value s = .next (retire (placeLength p)
      (storeCost p + dmaPenalty s.cfg (placeEff p s).addr) t) := by
  have hf := write8_ok_frame h
  simp only [writeClass, effAddr_eq, h, Res.andThen_ok, finish, hf.cfg]

theorem writeClass_err {p : Place} {value : Cpu → Byte} {s t : State} {f : FaultRecord}
    (h : write8 (placeEff p s).addr (value s.cpu) s = .err f t) :
    writeClass p value s = .fault (raise f (faulted f s t)) := by
  simp only [writeClass, effAddr_eq, h, Res.andThen_ok, Res.andThen_err, finish]

theorem modifyClass_ok {p : Place} {alu : Byte → Byte → Byte × Byte} {s t u : State} {v : Byte}
    (hr : read8 (placeEff p s).addr s = .ok v t)
    (hw : write8 (placeEff p s).addr (alu v s.cpu.p).1 t = .ok () u) :
    modifyClass p alu s = .next (retire (placeLength p)
      (rmwCost p + dmaPenalty s.cfg (placeEff p s).addr) (setP (alu v s.cpu.p).2 u)) := by
  have hf := read8_ok_frame hr
  have hg := write8_ok_frame hw
  simp only [modifyClass, effAddr_eq, hr, Res.andThen_ok, finish, hf.cpu, hw, hg.cfg, hf.cfg]

theorem modifyClass_read_err {p : Place} {alu : Byte → Byte → Byte × Byte} {s t : State}
    {f : FaultRecord} (hr : read8 (placeEff p s).addr s = .err f t) :
    modifyClass p alu s = .fault (raise f (faulted f s t)) := by
  simp only [modifyClass, effAddr_eq, hr, Res.andThen_ok, Res.andThen_err, finish]

theorem modifyClass_write_err {p : Place} {alu : Byte → Byte → Byte × Byte} {s t u : State} {v : Byte}
    {f : FaultRecord} (hr : read8 (placeEff p s).addr s = .ok v t)
    (hw : write8 (placeEff p s).addr (alu v s.cpu.p).1 t = .err f u) :
    modifyClass p alu s = .fault (raise f (faulted f s u)) := by
  have hf := read8_ok_frame hr
  simp only [modifyClass, effAddr_eq, hr, Res.andThen_ok, finish, hf.cpu, hw, Res.andThen_err]

end Sys2Proof.Machine
end

