-- ==== Sys2Proof/Laws/Flags.lean ====
section
/-! SUPPORT. The flags of `P`: what writing one leaves in the others, and which flags each computation
leaves as they were. -/

namespace Sys2Proof.Machine

open Sys2Proof

theorem getFlag_eq_getLsbD (f : Flag) (p : Byte) :
    getFlag f p = p.getLsbD (match f with
      | .c => 0 | .z => 1 | .i => 2 | .d => 3 | .b => 4 | .bit5 => 5 | .v => 6 | .n => 7) := by
  cases f <;> revert p <;> decide +kernel

@[simp] theorem getFlag_setFlag_same (f : Flag) (b : Bool) (p : Byte) :
    getFlag f (setFlag f b p) = b := by
  rw [getFlag_eq_getLsbD]
  cases f <;> cases b <;> simp [setFlag, flagMask]

theorem getFlag_setFlag_ne {f g : Flag} (h : f ≠ g) (b : Bool) (p : Byte) :
    getFlag g (setFlag f b p) = getFlag g p := by
  simp only [getFlag_eq_getLsbD]
  cases f <;> cases g <;> first | exact absurd rfl h | skip
  all_goals cases b <;> simp [setFlag, flagMask]

theorem getFlag_setNZ_ne {f : Flag} (hz : f ≠ .z) (hn : f ≠ .n) (v p : Byte) :
    getFlag f (setNZ v p) = getFlag f p := by
  rw [setNZ, getFlag_setFlag_ne hn.symm, getFlag_setFlag_ne hz.symm]

theorem getFlag_setV_ne {f : Flag} (hv : f ≠ .v) (cfg : Config) (b : Bool) (p : Byte) :
    getFlag f (setV cfg b p) = getFlag f p := by
  unfold setV
  split
  · rfl
  · exact getFlag_setFlag_ne hv.symm b p

theorem getFlag_addBinary_ne {f : Flag} (hz : f ≠ .z) (hn : f ≠ .n) (hc : f ≠ .c) (hv : f ≠ .v)
    (cfg : Config) (a m p : Byte) : getFlag f (addBinary cfg a m p).2 = getFlag f p := by
  simp only [addBinary]
  rw [getFlag_setNZ_ne hz hn, getFlag_setFlag_ne hc.symm, getFlag_setV_ne hv]

theorem getFlag_adcAlu_ne {f : Flag} (hz : f ≠ .z) (hn : f ≠ .n) (hc : f ≠ .c) (hv : f ≠ .v)
    (cfg : Config) (a m p : Byte) : getFlag f (adcAlu cfg a m p).2 = getFlag f p := by
  unfold adcAlu
  split
  · simp only [adcDecimal]
    rw [getFlag_setV_ne hv, getFlag_setFlag_ne hn.symm, getFlag_setFlag_ne hz.symm,
      getFlag_setFlag_ne hc.symm]
  · exact getFlag_addBinary_ne hz hn hc hv cfg a m p

theorem getFlag_sbcAlu_ne {f : Flag} (hz : f ≠ .z) (hn : f ≠ .n) (hc : f ≠ .c) (hv : f ≠ .v)
    (cfg : Config) (a m p : Byte) : getFlag f (sbcAlu cfg a m p).2 = getFlag f p := by
  unfold sbcAlu
  split
  · simp only [sbcDecimal]
    exact getFlag_addBinary_ne hz hn hc hv cfg a (~~~m) p
  · exact getFlag_addBinary_ne hz hn hc hv cfg a (~~~m) p

theorem getFlag_compareFlags_ne {f : Flag} (hz : f ≠ .z) (hn : f ≠ .n) (hc : f ≠ .c)
    (r m p : Byte) : getFlag f (compareFlags r m p) = getFlag f p := by
  rw [compareFlags, getFlag_setFlag_ne hc.symm, getFlag_setNZ_ne hz hn]

theorem getFlag_cmpFlags_ne {f : Flag} (hz : f ≠ .z) (hn : f ≠ .n) (hc : f ≠ .c)
    (cfg : Config) (r m p : Byte) : getFlag f (cmpFlags cfg r m p) = getFlag f p := by
  unfold cmpFlags
  split
  · split
    · rw [getFlag_setFlag_ne hc.symm, getFlag_setNZ_ne hz hn]
    · exact getFlag_setNZ_ne hz hn _ _
  · exact getFlag_compareFlags_ne hz hn hc r m p

theorem getFlag_bitFlags_ne {f : Flag} (hz : f ≠ .z) (hn : f ≠ .n) (hv : f ≠ .v)
    (cfg : Config) (r m p : Byte) : getFlag f (bitFlags cfg r m p) = getFlag f p := by
  rw [bitFlags, getFlag_setV_ne hv, getFlag_setFlag_ne hn.symm, getFlag_setFlag_ne hz.symm]

end Sys2Proof.Machine
end

