-- ==== Sys2Proof/Laws/MemOk.lean ====
section
/-! SUPPORT. Every operation that writes memory keeps the canonical form and the sizes of the arrays. -/

namespace Sys2Proof.Machine

open Sys2Proof

theorem writePpuReg_memOk {s : State} (h : MemOk s) {i : Nat} (hi : i < 8) (v : Byte) :
    MemOk (writePpuReg i v s) :=
  { h with ppuReg := ⟨Memory.write_wf h.ppuReg.1 i v, Memory.write_within h.ppuReg.2 hi v⟩ }

theorem vramWrite_memOk {s : State} (h : MemOk s) (a : Word) (v : Byte) : MemOk (vramWrite a v s) := by
  refine { h with vram := ⟨?_, ?_⟩ }
  · exact Memory.foldl_write_wf _ v _ (Memory.write_wf h.vram.1 _ v)
  · exact Memory.foldl_write_within BitVec.toNat v 65536 (fun b : Word => b.isLt) _
      (Memory.write_within h.vram.2 a.isLt v)

theorem memOk_of_eq {s t : State} (h : MemOk s) (h1 : t.ram = s.ram) (h2 : t.ppuReg = s.ppuReg)
    (h3 : t.vram = s.vram) (h4 : t.oam = s.oam) (h5 : t.cart = s.cart) : MemOk t := by
  constructor
  · rw [h1]; exact h.ram
  · rw [h2]; exact h.ppuReg
  · rw [h3]; exact h.vram
  · rw [h4]; exact h.oam
  · rw [h5]; exact h.prg
  · rw [h5]; exact h.chr

theorem readCell_memOk {s : State} (h : MemOk s) (a : Word) : MemOk (readCell a s).after := by
  unfold readCell
  split <;> exact memOk_of_eq h rfl rfl rfl rfl rfl

theorem notifyRead_memOk {s : State} (h : MemOk s) (i : Nat) (v : Byte) :
    MemOk (notifyRead i v s) := by
  unfold notifyRead
  split
  · exact memOk_of_eq (writePpuReg_memOk h (by decide : 2 < 8) (Memory.read s.ppuReg 2 &&& 0x7F#8))
      rfl rfl rfl rfl rfl
  · unfold onRead2007
    split
    · exact memOk_of_eq (vramWrite_memOk h s.cursors.vramPtr v) rfl rfl rfl rfl rfl
    · exact memOk_of_eq
        (writePpuReg_memOk h (by decide : 7 < 8) (vramRead s.cursors.vramPtr s)) rfl rfl rfl rfl rfl
  · exact h

theorem notifyWrite_memOk {s : State} (h : MemOk s) (i : Nat) (v : Byte) :
    MemOk (notifyWrite i v s) := by
  unfold notifyWrite
  split
  · exact memOk_of_eq h rfl rfl rfl rfl rfl
  · exact memOk_of_eq h rfl rfl rfl rfl rfl
  · exact memOk_of_eq h rfl rfl rfl rfl rfl
  · exact { h with oam := ⟨Memory.write_wf h.oam.1 _ v, Memory.write_within h.oam.2 s.cursors.oamCursor.isLt v⟩ }
  · unfold onWrite2006
    split <;> exact memOk_of_eq h rfl rfl rfl rfl rfl
  · exact memOk_of_eq (vramWrite_memOk h s.cursors.vramPtr v) rfl rfl rfl rfl rfl
  · exact h

theorem dmaCopy_memOk (v : Byte) (n i : Nat) {s : State} (h : MemOk s) (hi : i + n ≤ 256) :
    MemOk (dmaCopy v n i s).after := by
  induction n generalizing i s with
  | zero => exact h
  | succ n ih =>
    refine Res.andThen_after (P := MemOk) (readCell_memOk h _) fun b t ht => ?_
    have h' : MemOk t := by simpa [ht] using readCell_memOk h (joinBytes v (BitVec.ofNat 8 i))
    exact ih (i + 1)
      { h' with oam := ⟨Memory.write_wf h'.oam.1 i b, Memory.write_within h'.oam.2 (by omega) b⟩ }
      (by omega)

theorem read8_memOk {s : State} (h : MemOk s) (a : Word) : MemOk (read8 a s).after := by
  refine Res.andThen_after (P := MemOk) (readCell_memOk h _) fun v t ht => ?_
  have h' : MemOk t := by simpa [ht] using readCell_memOk h a
  split
  · exact notifyRead_memOk h' _ _
  · exact h'

theorem write8_memOk {s : State} (h : MemOk s) (a : Word) (v : Byte) :
    MemOk (write8 a v s).after := by
  unfold write8
  split
  · exact { h with
      ram := ⟨Memory.write_wf h.ram.1 _ v, Memory.write_within h.ram.2 (regionOf_ram_lt ‹_›) v⟩ }
  · exact notifyWrite_memOk (writePpuReg_memOk h (regionOf_ppuReg_lt ‹_›) v) _ _
  · split
    · exact dmaCopy_memOk v 256 0 h (by decide)
    · exact h
  · split <;> exact h
  · exact h

theorem read8_ok_memOk {s t : State} {a : Word} {v : Byte} (h : MemOk s) (hr : read8 a s = .ok v t) :
    MemOk t := by
  simpa [hr] using read8_memOk h a

theorem write8_ok_memOk {s t : State} {a : Word} {v : Byte} {u : Unit} (h : MemOk s)
    (hw : write8 a v s = .ok u t) : MemOk t := by
  simpa [hw] using write8_memOk h a v

theorem pushed_memOk {s : State} (h : MemOk s) (sp v : Byte) :
    MemOk { s with ram := pushed s.ram sp v } :=
  { h with
    ram := ⟨Memory.write_wf h.ram.1 _ v, Memory.write_within h.ram.2 (by have := sp.isLt; omega) v⟩ }

/-- Interrupt entry keeps the memories' form. -/
theorem enterHandler_memOk {s t : State} {ret vector : Word} {status : Byte} (h : MemOk s)
    (hv : 0x8000 ≤ vector.toNat) (hv' : vector.toNat ≤ 0xFFFE)
    (he : enterHandler ret status vector s = .ok () t) : MemOk t := by
  rw [enterHandler_eq _ _ hv hv'] at he
  cases he
  exact memOk_of_eq (pushed_memOk (pushed_memOk (pushed_memOk h s.cpu.sp (highByte ret))
    (s.cpu.sp - 1#8) (lowByte ret)) (s.cpu.sp - 1#8 - 1#8) status) rfl rfl rfl rfl rfl

end Sys2Proof.Machine
end

