-- ==== Sys2Proof/Laws/PerInstr.lean ====
section
/-! SUPPORT. Every instruction's encoding begins with the opcode of a row of R92, and is as long as that
row's format: one lemma per constructor. -/

namespace Sys2Proof.Laws.EncodesToRow

open Sys2Proof

/-- The opcode byte of the encoding has a row, and the encoding has the row's length (R76, R92). -/
def Statement (i : Instr) : Prop :=
  (rowOf i.opcode).map (fun r => formatLength r.format) = some i.length

theorem ldaIzx (n : Byte) : Statement (.ldaIzx n) := Eq.refl (some 2)
theorem ldaZp (n : Byte) : Statement (.ldaZp n) := Eq.refl (some 2)
theorem ldaImm (n : Byte) : Statement (.ldaImm n) := Eq.refl (some 2)
theorem ldaAbs (nn : Word) : Statement (.ldaAbs nn) := Eq.refl (some 3)
theorem ldaIzy (n : Byte) : Statement (.ldaIzy n) := Eq.refl (some 2)
theorem ldaZpx (n : Byte) : Statement (.ldaZpx n) := Eq.refl (some 2)
theorem ldaAby (nn : Word) : Statement (.ldaAby nn) := Eq.refl (some 3)
theorem ldaAbx (nn : Word) : Statement (.ldaAbx nn) := Eq.refl (some 3)
theorem ldxImm (n : Byte) : Statement (.ldxImm n) := Eq.refl (some 2)
theorem ldxZp (n : Byte) : Statement (.ldxZp n) := Eq.refl (some 2)
theorem ldxAbs (nn : Word) : Statement (.ldxAbs nn) := Eq.refl (some 3)
theorem ldxZpy (n : Byte) : Statement (.ldxZpy n) := Eq.refl (some 2)
theorem ldxAby (nn : Word) : Statement (.ldxAby nn) := Eq.refl (some 3)
theorem ldyImm (n : Byte) : Statement (.ldyImm n) := Eq.refl (some 2)
theorem ldyZp (n : Byte) : Statement (.ldyZp n) := Eq.refl (some 2)
theorem ldyAbs (nn : Word) : Statement (.ldyAbs nn) := Eq.refl (some 3)
theorem ldyZpx (n : Byte) : Statement (.ldyZpx n) := Eq.refl (some 2)
theorem ldyAbx (nn : Word) : Statement (.ldyAbx nn) := Eq.refl (some 3)
theorem staIzx (n : Byte) : Statement (.staIzx n) := Eq.refl (some 2)
theorem staZp (n : Byte) : Statement (.staZp n) := Eq.refl (some 2)
theorem staAbs (nn : Word) : Statement (.staAbs nn) := Eq.refl (some 3)
theorem staIzy (n : Byte) : Statement (.staIzy n) := Eq.refl (some 2)
theorem staZpx (n : Byte) : Statement (.staZpx n) := Eq.refl (some 2)
theorem staAby (nn : Word) : Statement (.staAby nn) := Eq.refl (some 3)
theorem staAbx (nn : Word) : Statement (.staAbx nn) := Eq.refl (some 3)
theorem stxZp (n : Byte) : Statement (.stxZp n) := Eq.refl (some 2)
theorem stxAbs (nn : Word) : Statement (.stxAbs nn) := Eq.refl (some 3)
theorem stxZpy (n : Byte) : Statement (.stxZpy n) := Eq.refl (some 2)
theorem styZp (n : Byte) : Statement (.styZp n) := Eq.refl (some 2)
theorem styAbs (nn : Word) : Statement (.styAbs nn) := Eq.refl (some 3)
theorem styZpx (n : Byte) : Statement (.styZpx n) := Eq.refl (some 2)
theorem tax : Statement .tax := Eq.refl (some 1)
theorem tay : Statement .tay := Eq.refl (some 1)
theorem txa : Statement .txa := Eq.refl (some 1)
theorem tya : Statement .tya := Eq.refl (some 1)
theorem tsx : Statement .tsx := Eq.refl (some 1)
theorem txs : Statement .txs := Eq.refl (some 1)
theorem pha : Statement .pha := Eq.refl (some 1)
theorem php : Statement .php := Eq.refl (some 1)
theorem pla : Statement .pla := Eq.refl (some 1)
theorem plp : Statement .plp := Eq.refl (some 1)
theorem adcIzx (n : Byte) : Statement (.adcIzx n) := Eq.refl (some 2)
theorem adcZp (n : Byte) : Statement (.adcZp n) := Eq.refl (some 2)
theorem adcImm (n : Byte) : Statement (.adcImm n) := Eq.refl (some 2)
theorem adcAbs (nn : Word) : Statement (.adcAbs nn) := Eq.refl (some 3)
theorem adcIzy (n : Byte) : Statement (.adcIzy n) := Eq.refl (some 2)
theorem adcZpx (n : Byte) : Statement (.adcZpx n) := Eq.refl (some 2)
theorem adcAby (nn : Word) : Statement (.adcAby nn) := Eq.refl (some 3)
theorem adcAbx (nn : Word) : Statement (.adcAbx nn) := Eq.refl (some 3)
theorem sbcIzx (n : Byte) : Statement (.sbcIzx n) := Eq.refl (some 2)
theorem sbcZp (n : Byte) : Statement (.sbcZp n) := Eq.refl (some 2)
theorem sbcImm (n : Byte) : Statement (.sbcImm n) := Eq.refl (some 2)
theorem sbcAbs (nn : Word) : Statement (.sbcAbs nn) := Eq.refl (some 3)
theorem sbcIzy (n : Byte) : Statement (.sbcIzy n) := Eq.refl (some 2)
theorem sbcZpx (n : Byte) : Statement (.sbcZpx n) := Eq.refl (some 2)
theorem sbcAby (nn : Word) : Statement (.sbcAby nn) := Eq.refl (some 3)
theorem sbcAbx (nn : Word) : Statement (.sbcAbx nn) := Eq.refl (some 3)
theorem andIzx (n : Byte) : Statement (.andIzx n) := Eq.refl (some 2)
theorem andZp (n : Byte) : Statement (.andZp n) := Eq.refl (some 2)
theorem andImm (n : Byte) : Statement (.andImm n) := Eq.refl (some 2)
theorem andAbs (nn : Word) : Statement (.andAbs nn) := Eq.refl (some 3)
theorem andIzy (n : Byte) : Statement (.andIzy n) := Eq.refl (some 2)
theorem andZpx (n : Byte) : Statement (.andZpx n) := Eq.refl (some 2)
theorem andAby (nn : Word) : Statement (.andAby nn) := Eq.refl (some 3)
theorem andAbx (nn : Word) : Statement (.andAbx nn) := Eq.refl (some 3)
theorem oraIzx (n : Byte) : Statement (.oraIzx n) := Eq.refl (some 2)
theorem oraZp (n : Byte) : Statement (.oraZp n) := Eq.refl (some 2)
theorem oraImm (n : Byte) : Statement (.oraImm n) := Eq.refl (some 2)
theorem oraAbs (nn : Word) : Statement (.oraAbs nn) := Eq.refl (some 3)
theorem oraIzy (n : Byte) : Statement (.oraIzy n) := Eq.refl (some 2)
theorem oraZpx (n : Byte) : Statement (.oraZpx n) := Eq.refl (some 2)
theorem oraAby (nn : Word) : Statement (.oraAby nn) := Eq.refl (some 3)
theorem oraAbx (nn : Word) : Statement (.oraAbx nn) := Eq.refl (some 3)
theorem eorIzx (n : Byte) : Statement (.eorIzx n) := Eq.refl (some 2)
theorem eorZp (n : Byte) : Statement (.eorZp n) := Eq.refl (some 2)
theorem eorImm (n : Byte) : Statement (.eorImm n) := Eq.refl (some 2)
theorem eorAbs (nn : Word) : Statement (.eorAbs nn) := Eq.refl (some 3)
theorem eorIzy (n : Byte) : Statement (.eorIzy n) := Eq.refl (some 2)
theorem eorZpx (n : Byte) : Statement (.eorZpx n) := Eq.refl (some 2)
theorem eorAby (nn : Word) : Statement (.eorAby nn) := Eq.refl (some 3)
theorem eorAbx (nn : Word) : Statement (.eorAbx nn) := Eq.refl (some 3)
theorem cmpIzx (n : Byte) : Statement (.cmpIzx n) := Eq.refl (some 2)
theorem cmpZp (n : Byte) : Statement (.cmpZp n) := Eq.refl (some 2)
theorem cmpImm (n : Byte) : Statement (.cmpImm n) := Eq.refl (some 2)
theorem cmpAbs (nn : Word) : Statement (.cmpAbs nn) := Eq.refl (some 3)
theorem cmpIzy (n : Byte) : Statement (.cmpIzy n) := Eq.refl (some 2)
theorem cmpZpx (n : Byte) : Statement (.cmpZpx n) := Eq.refl (some 2)
theorem cmpAby (nn : Word) : Statement (.cmpAby nn) := Eq.refl (some 3)
theorem cmpAbx (nn : Word) : Statement (.cmpAbx nn) := Eq.refl (some 3)
theorem cpxImm (n : Byte) : Statement (.cpxImm n) := Eq.refl (some 2)
theorem cpxZp (n : Byte) : Statement (.cpxZp n) := Eq.refl (some 2)
theorem cpxAbs (nn : Word) : Statement (.cpxAbs nn) := Eq.refl (some 3)
theorem cpyImm (n : Byte) : Statement (.cpyImm n) := Eq.refl (some 2)
theorem cpyZp (n : Byte) : Statement (.cpyZp n) := Eq.refl (some 2)
theorem cpyAbs (nn : Word) : Statement (.cpyAbs nn) := Eq.refl (some 3)
theorem bitZp (n : Byte) : Statement (.bitZp n) := Eq.refl (some 2)
theorem bitAbs (nn : Word) : Statement (.bitAbs nn) := Eq.refl (some 3)
theorem incZp (n : Byte) : Statement (.incZp n) := Eq.refl (some 2)
theorem incAbs (nn : Word) : Statement (.incAbs nn) := Eq.refl (some 3)
theorem incZpx (n : Byte) : Statement (.incZpx n) := Eq.refl (some 2)
theorem incAbx (nn : Word) : Statement (.incAbx nn) := Eq.refl (some 3)
theorem decZp (n : Byte) : Statement (.decZp n) := Eq.refl (some 2)
theorem decAbs (nn : Word) : Statement (.decAbs nn) := Eq.refl (some 3)
theorem decZpx (n : Byte) : Statement (.decZpx n) := Eq.refl (some 2)
theorem decAbx (nn : Word) : Statement (.decAbx nn) := Eq.refl (some 3)
theorem inx : Statement .inx := Eq.refl (some 1)
theorem iny : Statement .iny := Eq.refl (some 1)
theorem dex : Statement .dex := Eq.refl (some 1)
theorem dey : Statement .dey := Eq.refl (some 1)
theorem aslZp (n : Byte) : Statement (.aslZp n) := Eq.refl (some 2)
theorem aslAcc : Statement .aslAcc := Eq.refl (some 1)
theorem aslAbs (nn : Word) : Statement (.aslAbs nn) := Eq.refl (some 3)
theorem aslZpx (n : Byte) : Statement (.aslZpx n) := Eq.refl (some 2)
theorem aslAbx (nn : Word) : Statement (.aslAbx nn) := Eq.refl (some 3)
theorem lsrZp (n : Byte) : Statement (.lsrZp n) := Eq.refl (some 2)
theorem lsrAcc : Statement .lsrAcc := Eq.refl (some 1)
theorem lsrAbs (nn : Word) : Statement (.lsrAbs nn) := Eq.refl (some 3)
theorem lsrZpx (n : Byte) : Statement (.lsrZpx n) := Eq.refl (some 2)
theorem lsrAbx (nn : Word) : Statement (.lsrAbx nn) := Eq.refl (some 3)
theorem rolZp (n : Byte) : Statement (.rolZp n) := Eq.refl (some 2)
theorem rolAcc : Statement .rolAcc := Eq.refl (some 1)
theorem rolAbs (nn : Word) : Statement (.rolAbs nn) := Eq.refl (some 3)
theorem rolZpx (n : Byte) : Statement (.rolZpx n) := Eq.refl (some 2)
theorem rolAbx (nn : Word) : Statement (.rolAbx nn) := Eq.refl (some 3)
theorem rorZp (n : Byte) : Statement (.rorZp n) := Eq.refl (some 2)
theorem rorAcc : Statement .rorAcc := Eq.refl (some 1)
theorem rorAbs (nn : Word) : Statement (.rorAbs nn) := Eq.refl (some 3)
theorem rorZpx (n : Byte) : Statement (.rorZpx n) := Eq.refl (some 2)
theorem rorAbx (nn : Word) : Statement (.rorAbx nn) := Eq.refl (some 3)
theorem bcc (n : Byte) : Statement (.bcc n) := Eq.refl (some 2)
theorem bcs (n : Byte) : Statement (.bcs n) := Eq.refl (some 2)
theorem beq (n : Byte) : Statement (.beq n) := Eq.refl (some 2)
theorem bmi (n : Byte) : Statement (.bmi n) := Eq.refl (some 2)
theorem bne (n : Byte) : Statement (.bne n) := Eq.refl (some 2)
theorem bpl (n : Byte) : Statement (.bpl n) := Eq.refl (some 2)
theorem bvc (n : Byte) : Statement (.bvc n) := Eq.refl (some 2)
theorem bvs (n : Byte) : Statement (.bvs n) := Eq.refl (some 2)
theorem jmpAbs (nn : Word) : Statement (.jmpAbs nn) := Eq.refl (some 3)
theorem jmpInd (nn : Word) : Statement (.jmpInd nn) := Eq.refl (some 3)
theorem jsr (nn : Word) : Statement (.jsr nn) := Eq.refl (some 3)
theorem rts : Statement .rts := Eq.refl (some 1)
theorem brk : Statement .brk := Eq.refl (some 1)
theorem rti : Statement .rti := Eq.refl (some 1)
theorem nop : Statement .nop := Eq.refl (some 1)
theorem clc : Statement .clc := Eq.refl (some 1)
theorem sec : Statement .sec := Eq.refl (some 1)
theorem cli : Statement .cli := Eq.refl (some 1)
theorem sei : Statement .sei := Eq.refl (some 1)
theorem cld : Statement .cld := Eq.refl (some 1)
theorem sed : Statement .sed := Eq.refl (some 1)
theorem clv : Statement .clv := Eq.refl (some 1)

end Sys2Proof.Laws.EncodesToRow
end

