-- ==== Sys2Proof/Laws/Ppu.lean ====
section
/-! SUPPORT. What one PPU dot can do, and what any number of them leaves alone. -/

namespace Sys2Proof.Machine

open Sys2Proof

theorem raiseVblank_eq (s : State) : raiseVblank s = { s with
    ppuReg := Memory.write s.ppuReg 2 (Memory.read s.ppuReg 2 ||| 0x80#8)
    pending := if s.control.nmiEnable then upgrade .nmi s.pending else s.pending } := by
  unfold raiseVblank writePpuReg requestInterrupt setPending
  dsimp only
  split <;> rfl

theorem lineTiming_lineDots (n : Nat) (t : PpuTiming) :
    (lineTiming n t).lineDots = if t.lineDots + 1 = n then 0 else t.lineDots + 1 := by
  unfold lineTiming
  dsimp only
  split <;> rfl

theorem lineTiming_scanline (n : Nat) (t : PpuTiming) :
    (lineTiming n t).scanline = if t.lineDots + 1 = n then (t.scanline + 1) % 262 else t.scanline := by
  unfold lineTiming Config.linesPerFrame
  dsimp only
  split <;> rfl

theorem lineTiming_frameDots (n : Nat) (t : PpuTiming) :
    (lineTiming n t).frameDots = t.frameDots := by
  unfold lineTiming
  dsimp only
  split <;> rfl

theorem lineTiming_phase (n : Nat) (t : PpuTiming) : (lineTiming n t).phase =
    if fetches t.scanline (t.lineDots + 1) then nextPhase t.phase else t.phase := by
  unfold lineTiming
  dsimp only
  split <;> rfl

/-- One dot, as one record: the threshold dot raises vblank, every other dot only counts. -/
theorem ppuDot_eq (s : State) : ppuDot s =
    if s.timing.frameDots + 1 = 262 * s.cfg.lineDots then
      { raiseVblank s with timing := lineTiming s.cfg.lineDots { s.timing with frameDots := 0 } }
    else
      { s with timing :=
          lineTiming s.cfg.lineDots { s.timing with frameDots := s.timing.frameDots + 1 } } := by
  unfold ppuDot frameDot frameLength Config.linesPerFrame
  split
  · simp only [raiseVblank_eq]
  · rfl

theorem ppuDot_timing (s : State) : (ppuDot s).timing = lineTiming s.cfg.lineDots { s.timing with
    frameDots := if s.timing.frameDots + 1 = 262 * s.cfg.lineDots then 0
      else s.timing.frameDots + 1 } := by
  rw [ppuDot_eq]
  split <;> rfl

/-- A dot changes only the counters, the register cells and the interrupt slot. -/
theorem ppuDot_frame (s : State) : ppuDot s = { s with
    timing := (ppuDot s).timing, ppuReg := (ppuDot s).ppuReg, pending := (ppuDot s).pending } := by
  rw [ppuDot_eq]
  split
  · rw [raiseVblank_eq]
  · rfl

/-- So does any number of dots. -/
theorem ppuDots_frame (n : Nat) (s : State) : ppuDots n s = { s with
    timing := (ppuDots n s).timing, ppuReg := (ppuDots n s).ppuReg
    pending := (ppuDots n s).pending } := by
  induction n generalizing s with
  | zero => rfl
  | succ n ih =>
    have h := ih (ppuDot s)
    have h' := ppuDot_frame s
    show ppuDots n (ppuDot s) = { s with
      timing := (ppuDots n (ppuDot s)).timing, ppuReg := (ppuDots n (ppuDot s)).ppuReg
      pending := (ppuDots n (ppuDot s)).pending }
    conv_lhs => rw [h]
    generalize (ppuDots n (ppuDot s)).timing = t
    generalize (ppuDots n (ppuDot s)).ppuReg = r
    generalize (ppuDots n (ppuDot s)).pending = p
    rw [h']

theorem ppuDots_add (m n : Nat) (s : State) : ppuDots (m + n) s = ppuDots n (ppuDots m s) := by
  induction m generalizing s with
  | zero => simp [ppuDots]
  | succ m ih => rw [Nat.add_right_comm]; exact ih _

theorem ppuDot_memOk {s : State} (h : MemOk s) : MemOk (ppuDot s) := by
  rw [ppuDot_eq]
  split
  · rw [raiseVblank_eq]
    exact memOk_of_eq (writePpuReg_memOk h (by decide : 2 < 8) (Memory.read s.ppuReg 2 ||| 0x80#8))
      rfl rfl rfl rfl rfl
  · exact memOk_of_eq h rfl rfl rfl rfl rfl

theorem ppuDots_memOk (n : Nat) {s : State} (h : MemOk s) : MemOk (ppuDots n s) := by
  induction n generalizing s with
  | zero => exact h
  | succ n ih => exact ih (ppuDot_memOk h)

end Sys2Proof.Machine
end

