-- ==== Sys2Proof/Tests/Slice0.lean ====
section
/-! SUPPORT. Tests of decoding, of well-formedness and of one step per instruction, from the vectors of
95_test_vectors.md, and a witness for the hypotheses of every obligation that has some. -/

namespace Sys2Proof.Tests

open Sys2Proof Sys2Proof.Machine

set_option Elab.async false

/-! ## Helpers -/

/-- A register file. -/
def regs (a x y sp p : Byte) (pc : Word) : Cpu := { a := a, x := x, y := y, sp := sp, p := p, pc := pc }

/-- The reset state with code in PRG at PC, a register file, RAM contents and a configuration. -/
def codeAt (code : List Byte) (c : Cpu) (ram : Memory) (cfg : Config) : State :=
  let prg := Memory.ofBytes ((c.pc.toNat - 0x8000) % 0x4000) code
  { State.reset with
    cart := { banks := .one, prg := prg, chr := [] }
    cpu := c
    ram := ram
    cfg := cfg }

/-- The IRQ vector put behind the code. -/
def withIrqVector (lo hi : Byte) (s : State) : State :=
  { s with cart := { s.cart with prg := s.cart.prg ++ Memory.ofBytes 0x3FFE [lo, hi] } }

/-- A step goes on, to a state with this property. -/
def after (s : State) (p : State → Bool) : Bool :=
  match step s with
  | .next t => p t
  | .fault _ => false
  | .refused _ => false

/-- The fault a step ends in. -/
def stops (s : State) : Option FaultRecord :=
  match step s with
  | .next _ => none
  | .fault f => some (faultRecord f)
  | .refused _ => none

/-! ## Decoding and well-formedness -/

/-- A configuration that leaves ROR A out refuses it, and no other instruction. -/
theorem smoke_removed_opcode_is_ill_formed :
    Instr.rorAcc.wellFormed { opcodesRemoved := [0x6A#8] } = false ∧
    Instr.rolAcc.wellFormed { opcodesRemoved := [0x6A#8] } = true ∧
    Instr.rorAcc.wellFormed {} = true := by decide +kernel

/-- LDA #$2C, STA $2007 and LDX $FF,Y, from the tables of R101, R104 and R102. -/
theorem decode_load_store :
    decodeTableWord 16 0x2CA9 = some (.ldaImm 0x2C#8) ∧
    decodeTableWord 24 0x20078D = some (.staAbs 0x2007#16) ∧
    decodeTableWord 16 0xFFB6 = some (.ldxZpy 0xFF#8) := by decide +kernel

/-- TXS and PHA, from R112 and R113. -/
theorem decode_transfer_stack :
    decodeTableWord 8 0x9A = some .txs ∧ decodeTableWord 8 0x48 = some .pha := by decide +kernel

/-- ADC ($80,X), SBC $1234,Y and BIT $2002, from the tables of R117, R119 and R127. -/
theorem decode_arith_logic :
    decodeTableWord 16 0x8061 = some (.adcIzx 0x80#8) ∧
    decodeTableWord 24 0x1234F9 = some (.sbcAby 0x1234#16) ∧
    decodeTableWord 24 0x20022C = some (.bitAbs 0x2002#16) := by decide +kernel

/-- INC $1234,X and ROR A, from the tables of R128 and R137. -/
theorem decode_incdec_shift :
    decodeTableWord 24 0x1234FE = some (.incAbx 0x1234#16) ∧
    decodeTableWord 8 0x6A = some .rorAcc := by decide +kernel

/-- BNE -2, JMP ($10FF) and BRK, from R143, R148 and R151. -/
theorem decode_control :
    decodeTableWord 16 0xFED0 = some (.bne 0xFE#8) ∧
    decodeTableWord 24 0x10FF6C = some (.jmpInd 0x10FF#16) ∧
    decodeTableWord 8 0x00 = some .brk := by decide +kernel

/-- SED, from R159, and 0x02, which R92 gives no instruction. -/
theorem decode_flags :
    decodeTableWord 8 0xF8 = some .sed ∧ decodeTableWord 8 0x02 = none := by decide +kernel

/-- The first step after reset runs the instruction placed by `withFetchWord`: LDA #$2C and BRK, whose
two-byte operand words are zeros. -/
theorem fetch_word_runs_first :
    after (State.reset.withFetchWord 16 0x2CA9) (fun t => t.cpu.a == 0x2C#8 && t.cpu.pc == 0x0002#16) = true ∧
    after (State.reset.withFetchWord 8 0x00) (fun t => t.cpu.sp == 0xFA#8 && t.cycles == 7) = true := by
  decide +kernel

/-! ## Witnesses: encoding, fetch and step -/

/-- `code` at 0x8000 under the default configuration. -/
def prog (code : List Byte) : State := codeAt code (regs 0x00#8 0x00#8 0x00#8 0xFD#8 0x04#8 0x8000#16) [] {}

theorem next_of_after {s : State} {p : State → Bool} (h : after s p = true) : ∃ t, step s = .next t := by
  unfold after at h
  split at h
  · exact ⟨_, ‹_›⟩
  · cases h
  · cases h

theorem fault_of_stops {s : State} {r : FaultRecord} (h : stops s = some r) : ∃ f, step s = .fault f := by
  unfold stops at h
  split at h
  · cases h
  · exact ⟨_, ‹_›⟩
  · cases h

/-- A read of the PRG window through the two laws a witness needs. -/
theorem read8_code {a : Word} {v : Byte} {s : State} (h : 0x8000 ≤ a.toNat)
    (hv : prgByte s.cart (a.toNat - 0x8000) = v) : read8 a s = .ok v s := by
  rw [read8_prg h, hv]

theorem witness_EncodeOfDecode : decode [0xB6#8, 0xFF#8, 0xEA#8] = .ok (.ldxZpy 0xFF#8, [0xEA#8]) := rfl

theorem witness_StepRunsDecodedInstruction :
    Running (prog [0xA9#8, 0x2C#8]) ∧
    readBytes 2 0x8000#16 (prog [0xA9#8, 0x2C#8]) = .ok [0xA9#8, 0x2C#8] (prog [0xA9#8, 0x2C#8]) ∧
    decode [0xA9#8, 0x2C#8] = .ok (.ldaImm 0x2C#8, []) ∧
    (Instr.ldaImm 0x2C#8).wellFormed (prog [0xA9#8, 0x2C#8]).cfg = true := by
  refine ⟨⟨rfl, rfl⟩, ?_, rfl, rfl⟩
  simp only [readBytes]
  rw [read8_code (v := 0xA9#8) (by decide) (by decide +kernel), Res.andThen_ok,
    read8_code (v := 0x2C#8) (by decide) (by decide +kernel)]
  rfl

/-- Three bytes from 0xFFFF: one in PRG, two in RAM; and two bytes that end at 0x1FFF. -/
theorem witness_CodeInRamOrPrgIsFetchedWithoutEffect :
    (∀ k, k < 3 → (0xFFFF#16 + BitVec.ofNat 16 k).toNat < 0x2000 ∨
      0x8000 ≤ (0xFFFF#16 + BitVec.ofNat 16 k).toNat) ∧
    (∀ k, k < 2 → (0x1FFE#16 + BitVec.ofNat 16 k).toNat < 0x2000 ∨
      0x8000 ≤ (0x1FFE#16 + BitVec.ofNat 16 k).toNat) := by decide

/-- 0x02, which has no row, and 0x6A, which the configuration removes. -/
theorem witness_UnknownOpcodeFaults :
    let s := { prog [0x02#8] with cfg := { opcodesRemoved := [0x6A#8] } }
    let t := { prog [0x6A#8] with cfg := { opcodesRemoved := [0x6A#8] } }
    Running s ∧ read8 s.cpu.pc s = .ok 0x02#8 s ∧ documentedOpcodes.contains 0x02#8 = false ∧
    Running t ∧ read8 t.cpu.pc t = .ok 0x6A#8 t ∧ 0x6A#8 ∈ t.cfg.opcodesRemoved :=
  ⟨⟨rfl, rfl⟩, read8_code (by decide) (by decide +kernel), by decide +kernel, ⟨rfl, rfl⟩,
    read8_code (by decide) (by decide +kernel), by decide⟩

/-- A core at `pc` with 0x69 in the register cell 7 and 0x6D in the cell 6. -/
def atRegisters (pc : Word) : State :=
  { prog [] with
    cpu := regs 0x00#8 0x00#8 0x00#8 0xFD#8 0x04#8 pc
    ppuReg := [(6, 0x6D#8), (7, 0x69#8)] }

/-- PC at each end of each unmapped range; a two-byte instruction whose operand is at 0x2008; a three-byte
one whose last byte is. -/
theorem witness_FetchFromUnmappedFaults :
    Running (atRegisters 0x2008#16) ∧
    (∀ a ∈ [0x2008#16, 0x3FFF#16, 0x4020#16, 0x7FFF#16], Unmapped a) ∧
    (∃ t, read8 0x2007#16 (atRegisters 0x2007#16) = .ok 0x69#8 t) ∧
    (∃ row, admittedRow {} 0x69#8 = some row ∧ 2 ≤ formatLength row.format) ∧
    Unmapped (0x2007#16 + 1#16) ∧
    (∃ t u, read8 0x2006#16 (atRegisters 0x2006#16) = .ok 0x6D#8 t ∧
      read8 (0x2006#16 + 1#16) t = .ok 0x69#8 u) ∧
    (∃ row, admittedRow {} 0x6D#8 = some row ∧ formatLength row.format = 3) ∧
    Unmapped (0x2006#16 + 2#16) := by
  have h7 : regionOf 0x2007#16 = .ppuReg 7 := by decide +kernel
  have h6 : regionOf 0x2006#16 = .ppuReg 6 := by decide +kernel
  refine ⟨⟨rfl, rfl⟩, ?_, ⟨onRead2007 0x69#8 (atRegisters 0x2007#16), ?_⟩,
    ⟨_, rfl, by decide⟩, ?_,
    ⟨atRegisters 0x2006#16, onRead2007 0x69#8 (atRegisters 0x2006#16), ?_, ?_⟩, ⟨_, rfl, rfl⟩, ?_⟩
  · unfold Unmapped; simp only [List.forall_mem_cons, List.not_mem_nil, false_imp_iff, implies_true, and_true]; decide +kernel
  · simp only [read8, readCell, h7, Res.andThen_ok]; rfl
  · unfold Unmapped; decide +kernel
  · simp only [read8, readCell, h6, Res.andThen_ok]; rfl
  · rw [show (0x2006#16 + 1#16 : Word) = 0x2007#16 by decide]
    simp only [read8, readCell, h7, Res.andThen_ok]; rfl
  · unfold Unmapped; decide +kernel

/-- Running cores that stop for each of the causes. -/
theorem witness_StepStopsOnlyForTheSpecsCauses :
    Running (prog [0x02#8]) ∧
    stops (prog [0xAD#8, 0x08#8, 0x20#8]) = some (.addressOutOfRange 0x2008#16 .read) ∧
    stops (prog [0x8D#8, 0x20#8, 0x40#8]) = some (.addressOutOfRange 0x4020#16 .write) ∧
    stops (prog [0x8D#8, 0x00#8, 0x80#8]) = some (.addressOutOfRange 0x8000#16 .write) ∧
    stops (prog [0x02#8]) = some (.unknownOpcode 0x8000#16 0x02#8) :=
  ⟨⟨rfl, rfl⟩, by decide +kernel, by decide +kernel, by decide +kernel, by decide +kernel⟩

theorem witness_FaultKeepsRegistersAndTime :
    Running (prog [0x02#8]) ∧ ∃ f, step (prog [0x02#8]) = .fault f := 
  ⟨⟨rfl, rfl⟩, fault_of_stops (r := .unknownOpcode 0x8000#16 0x02#8) (by decide +kernel)⟩

theorem witness_FaultedCoreStaysHalted :
    ({ prog [] with fault := some (.unknownOpcode 0x8000#16 0x02#8) } : State).fault =
      some (.unknownOpcode 0x8000#16 0x02#8) := rfl

/-- NOP: a step that goes on. -/
theorem nop_goes_on : Running (prog [0xEA#8]) ∧ ∃ t, step (prog [0xEA#8]) = .next t :=
  ⟨⟨rfl, rfl⟩, next_of_after (p := fun _ => true) (by decide +kernel)⟩

theorem witness_StepKeepsCartridgeAndParameters :
    Running (prog [0xEA#8]) ∧ ∃ t, step (prog [0xEA#8]) = .next t := nop_goes_on

/-- Both budgets, with a step that goes on and one that faults. -/
theorem witness_RunZeroAndOneAreOneStep :
    (0 ≤ 1 ∧ 1 ≤ 1) ∧ (Running (prog [0xEA#8]) ∧ ∃ t, step (prog [0xEA#8]) = .next t) ∧
    (Running (prog [0x02#8]) ∧ ∃ f, step (prog [0x02#8]) = .fault f) :=
  ⟨by decide, nop_goes_on, witness_FaultKeepsRegistersAndTime⟩

theorem witness_RunEndsJustPastItsBudget :
    Running (prog [0xEA#8]) ∧ ∃ t, step (prog [0xEA#8]) = .next t := nop_goes_on

/-- A state in the middle of line 20 that meets the invariant, with code and a byte in RAM. -/
def midFrame (code : List Byte) : State :=
  { codeAt code (regs 0x01#8 0x02#8 0x03#8 0xFD#8 0x24#8 0x8000#16) [(0x10, 0x41#8)]
      { bFlagMode := .nmos } with
    timing := { frameDots := 6830, lineDots := 10, scanline := 20, phase := 6 } }

theorem midFrame_inv : Inv (midFrame [0xEA#8]) ∧ Inv (midFrame [0x02#8]) := by
  refine ⟨⟨by decide, ⟨?_, ?_, ?_, ?_, ?_, ?_⟩, ⟨?_, ?_, ?_, ?_⟩, fun _ => ?_⟩,
    by decide, ⟨?_, ?_, ?_, ?_, ?_, ?_⟩, ⟨?_, ?_, ?_, ?_⟩, fun _ => ?_⟩
  all_goals decide +kernel

theorem witness_StepKeepsInvariant :
    Inv (midFrame [0xEA#8]) ∧ (∃ t, step (midFrame [0xEA#8]) = .next t) ∧
    Inv (midFrame [0x02#8]) ∧ (∃ f, step (midFrame [0x02#8]) = .fault f) :=
  ⟨midFrame_inv.1, next_of_after (p := fun _ => true) (by decide +kernel), midFrame_inv.2,
    fault_of_stops (r := .unknownOpcode 0x8000#16 0x02#8) (by decide +kernel)⟩

/-- The header of a one-bank image, before whatever follows it. -/
def imageOf (rest : List Byte) : List Byte :=
  0x4E#8 :: 0x45#8 :: 0x53#8 :: 0x1A#8 :: 0x01#8 :: 0x01#8 :: 0x00#8 :: 0x00#8 :: rest

/-- With 24584 bytes behind the first eight, it is an image of the least length. -/
theorem imageOf_launches (rest : List Byte) (h : rest.length = 24584) :
    8 ≤ (imageOf rest).length ∧ ¬(imageOf rest).length < 16 + 16384 + 8192 ∧
    launch {} Launch.zero (imageOf rest) = .next (powerOn {} Launch.zero (cartridgeOf (imageOf rest) .one)) := by
  have hl : (imageOf rest).length = 24592 := by simp only [imageOf, List.length_cons, h]
  refine ⟨by omega, by omega, ?_⟩
  have g : goodMagic (imageOf rest) = true := rfl
  have m : mapperNumber (imageByte (imageOf rest) 6) (imageByte (imageOf rest) 7) = 0x00#8 :=
    show mapperNumber 0x00#8 0x00#8 = 0x00#8 by decide
  have b4 : prgBanksOf (imageByte (imageOf rest) 4) = some .one := rfl
  have b5 : imageByte (imageOf rest) 5 = 0x01#8 := rfl
  have e : loadImage (imageOf rest) = .ok (cartridgeOf (imageOf rest) .one) := by
    unfold loadImage
    rw [g, m, b4, b5, hl]
    rfl
  rw [launch, e]

theorem witness_PowerOnMeetsInvariant :
    Config.wf {} ∧ Launch.wf Launch.zero ∧ ∃ img s, launch {} Launch.zero img = .next s :=
  ⟨by decide, by decide, _, _, (imageOf_launches (List.replicate 24584 0x00#8) List.length_replicate).2.2⟩

/-! ## Witnesses: memory and the register bridge -/

/-- Addresses at both ends of every region of the decode map. -/
theorem witness_ReadFollowsTheDecodeMap :
    (0x0000#16).toNat < 0x2000 ∧ (0x1FFF#16).toNat < 0x2000 ∧
    (∀ a ∈ [0x2000#16, 0x2001#16, 0x2003#16, 0x2006#16],
      0x2000 ≤ a.toNat ∧ a.toNat < 0x2008 ∧ a ≠ 0x2002#16 ∧ a ≠ 0x2007#16) ∧
    (∀ a ∈ [0x4000#16, 0x4014#16, 0x401F#16], 0x4000 ≤ a.toNat ∧ a.toNat < 0x4020) ∧
    (∀ a ∈ [0x8000#16, 0xFFFF#16], 0x8000 ≤ a.toNat) ∧
    (∀ a ∈ [0x2008#16, 0x3FFF#16, 0x4020#16, 0x7FFF#16], Unmapped a) := by
  unfold Unmapped
  simp only [List.forall_mem_cons, List.not_mem_nil, false_imp_iff, implies_true, and_true]
  decide +kernel

/-- The same, with the I/O addresses next to the DMA register. -/
theorem witness_WriteFollowsTheDecodeMap :
    (0x1FFF#16).toNat < 0x2000 ∧
    (∀ a ∈ [0x4000#16, 0x4013#16, 0x4015#16, 0x401F#16],
      0x4000 ≤ a.toNat ∧ a.toNat < 0x4020 ∧ a ≠ 0x4014#16) ∧
    (∀ a ∈ [0x8000#16, 0xFFFF#16], 0x8000 ≤ a.toNat) ∧
    (∀ a ∈ [0x2008#16, 0x3FFF#16, 0x4020#16, 0x7FFF#16], Unmapped a) := by
  unfold Unmapped
  simp only [List.forall_mem_cons, List.not_mem_nil, false_imp_iff, implies_true, and_true]
  decide +kernel

/-- A cell at the last address of RAM, in all four copies. -/
theorem witness_FourMirroredCopiesAreOneArray :
    let one : Memory := [(0x07FF, 0x41#8)]
    let four : Memory := [(0x07FF, 0x41#8), (0x0FFF, 0x41#8), (0x17FF, 0x41#8), (0x1FFF, 0x41#8)]
    Memory.wf one ∧ Memory.wf four ∧ 0x1FFF < 0x2000 ∧
    ∀ b, b < 0x2000 → Memory.read four b = Memory.read one (b % 0x0800) := by
  refine ⟨by decide, by decide, by decide, fun b hb => ?_⟩
  simp only [Memory.read]
  split_ifs <;> first | rfl | omega

/-- Addresses at the ends of the I/O region, of the unmapped ranges and of the rest. -/
theorem witness_PeekShowsWhatReadReturns :
    (0x4000 ≤ (0x401F#16).toNat ∧ (0x401F#16).toNat < 0x4020) ∧
    (∀ a ∈ [0x2008#16, 0x7FFF#16], Unmapped a) ∧
    (∀ a ∈ [0x1FFF#16, 0x2007#16, 0x8000#16],
      ¬Unmapped a ∧ ¬(0x4000 ≤ a.toNat ∧ a.toNat < 0x4020)) := by
  unfold Unmapped
  simp only [List.forall_mem_cons, List.not_mem_nil, false_imp_iff, implies_true, and_true]
  decide +kernel

/-- V114 and V115: 0x3F14 is of the class of 0x3F04, 0x3F15 is not of that of 0x3F05. -/
theorem witness_VramWriteReachesItsMirrorClass :
    Memory.wf [(0x3F04, 0x0F#8)] ∧ SameVram 0x3F04 0x7F14 ∧ ¬SameVram 0x3F05 0x3F15 ∧
    ¬SameVram 0x2000 0xA000 := by decide

theorem witness_StatusRead : Memory.wf [(2, 0x80#8)] := by decide

theorem witness_WriteAfterStatusReadLandsAtTheLatchedAddress : Memory.wf [(0x3F10, 0x2C#8)] := by decide

/-- Both halves of the latch and both read modes. -/
theorem witness_LatchAndDataPort :
    (prog []).cursors.latchNext = .high ∧ (onWrite2006 0x21#8 (prog [])).cursors.latchNext = .low ∧
    (prog []).cfg.ppuDataReadMode = .literal ∧
    ({ prog [] with cfg := { ppuDataReadMode := .buffered } } : State).cfg.ppuDataReadMode = .buffered :=
  ⟨rfl, rfl, rfl, rfl⟩

/-- Pages on both sides of every boundary. -/
theorem witness_OamDma :
    Memory.wf [(0, 0x01#8), (255, 0x02#8)] ∧
    (∀ v ∈ [0x00#8, 0x1F#8, 0x80#8, 0xFF#8], v.toNat < 0x20 ∨ 0x80 ≤ v.toNat) ∧
    (∀ v ∈ [0x21#8, 0x3F#8, 0x41#8, 0x7F#8], 0x20 < v.toNat ∧ v.toNat < 0x80 ∧ v ≠ 0x40#8) := by
  simp only [List.forall_mem_cons, List.not_mem_nil, false_imp_iff, implies_true, and_true]
  decide +kernel

/-! ## Witnesses: the PPU and interrupts -/

theorem witness_DotsAdvanceTheCounters :
    Config.wf (midFrame []).cfg ∧ TimingOk (midFrame []).cfg.lineDots (midFrame []).timing :=
  ⟨by decide, ⟨by decide, by decide, by decide, by decide⟩⟩

/-- One dot short of the threshold, and the dot that reaches it. -/
theorem witness_VblankIsRaisedAtTheThreshold :
    Config.wf (midFrame []).cfg ∧ Memory.wf (midFrame []).ppuReg ∧
    (midFrame []).timing.frameDots < 262 * (midFrame []).cfg.lineDots ∧
    (midFrame []).timing.frameDots + 82511 < 262 * (midFrame []).cfg.lineDots ∧
    ¬(midFrame []).timing.frameDots + 82512 < 262 * (midFrame []).cfg.lineDots := by
  decide

/-- The start of a frame, for both line lengths. -/
theorem witness_OneFrameOfCyclesRaisesVblankOnce :
    ∀ d, d = 341 ∨ d = 342 →
      let s := { prog [] with cfg := { lineDots := d } }
      Inv s ∧ s.cfg.lineDots = d ∧ s.timing.frameDots = 0 := by
  intro d hd
  rcases hd with rfl | rfl
  all_goals
    refine ⟨⟨by decide, ⟨?_, ?_, ?_, ?_, ?_, ?_⟩, ⟨?_, ?_, ?_, ?_⟩, fun h => ?_⟩, rfl, rfl⟩
  all_goals first
    | decide
    | exact absurd h (by decide)

theorem witness_RequestsUpgradeAndWait :
    (∀ k : Interrupt, ({ prog [] with pending := some k } : State).pending = some k) ∧
    (prog []).pending = none ∧ getFlag .i (prog []).cpu.p = true ∧
    (prog []).cfg.intMode = .gatedAll := ⟨fun _ => rfl, rfl, by decide, rfl⟩

/-- An open gate under both modes, and a RESET pending under `nmos`. -/
theorem witness_InterruptServiceEntersTheHandler :
    let s := { prog [] with pending := some .irq, cpu := regs 0x00#8 0x00#8 0x00#8 0xFD#8 0x00#8 0x8000#16 }
    let t := { prog [] with pending := some .nmi, cfg := { intMode := .nmos } }
    (s.pending = some .irq ∧ getFlag .i s.cpu.p = false ∧ ¬(s.cfg.intMode = .nmos ∧ .irq = Interrupt.reset)) ∧
    (t.pending = some .nmi ∧ t.cfg.intMode = .nmos ∧ .nmi ≠ Interrupt.irq ∧
      ¬(t.cfg.intMode = .nmos ∧ .nmi = Interrupt.reset)) ∧
    ({ t with pending := some .reset } : State).pending = some .reset := by
  decide

theorem witness_ReturnsUndoEntries :
    Memory.wf (midFrame []).ram ∧ StatusOk (midFrame []).cfg (midFrame []).cpu.p ∧
    (midFrame []).cfg.returnOffset = 0x0000#16 ∧
    ¬((midFrame []).cfg.intMode = .nmos ∧ Interrupt.nmi = .reset) :=
  ⟨by decide, fun _ => by decide, rfl, by decide⟩

/-! ## Witnesses: flags and instructions -/

/-- D clear, and D set under `DECIMAL_MODE = off`. -/
theorem witness_BinaryAddAndSubtract :
    getFlag .d 0x04#8 = false ∧ ({} : Config).decimalMode = .off := by decide

/-- V33: 58 + 46 with C and D set; and operands at the ends of the decimal range. -/
theorem witness_DecimalAddAndSubtract :
    ({ decimalMode := .nmos } : Config).decimalMode = .nmos ∧ getFlag .d 0x0D#8 = true ∧
    (∀ v ∈ [0x00#8, 0x58#8, 0x46#8, 0x99#8], v.toNat / 16 < 10 ∧ v.toNat % 16 < 10) := by
  simp only [List.forall_mem_cons, List.not_mem_nil, false_imp_iff, implies_true, and_true]
  decide

/-- What the rows of the read class meet: an operand that can be read, at the ends of its regions, and one
that cannot, at the ends of the unmapped ranges. -/
theorem read_class_operands :
    (Source.imm 0x00#8).readable (prog []) ∧
    (∀ nn ∈ [0x0000#16, 0x1FFF#16, 0x2000#16, 0x2007#16, 0x4000#16, 0x401F#16, 0x8000#16, 0xFFFF#16],
      (Source.mem (.abs nn)).readable (prog [])) ∧
    (∀ nn ∈ [0x2008#16, 0x3FFF#16, 0x4020#16, 0x7FFF#16], Unmapped (placeEff (.abs nn) (prog [])).addr) := by
  unfold Source.readable Unmapped
  simp only [List.forall_mem_cons, List.not_mem_nil, false_imp_iff, implies_true, and_true]
  decide +kernel

theorem witness_Loads : ∃ f ∈ ldaForms 0x00#8 0x1FFF#16, f.source.readable (prog []) :=
  ⟨⟨.ldaImm 0x00#8, [0xA9#8, 0x00#8], .imm 0x00#8, 2, false⟩, by simp [ldaForms], trivial⟩

theorem witness_ArithmeticAndLogic : ∃ f ∈ adcForms 0x00#8 0x1FFF#16, f.source.readable (prog []) :=
  ⟨⟨.adcImm 0x00#8, [0x69#8, 0x00#8], .imm 0x00#8, 2, false⟩, by simp [adcForms], trivial⟩

theorem witness_CompareAndBit : ∃ f ∈ cmpForms 0x00#8 0x1FFF#16, f.source.readable (prog []) :=
  ⟨⟨.cmpImm 0x00#8, [0xC9#8, 0x00#8], .imm 0x00#8, 2, false⟩, by simp [cmpForms], trivial⟩

/-- Where a store is accepted and where it is not: each region, and the DMA register with pages on both
sides of the boundaries. -/
theorem witness_Stores :
    (∀ a ∈ [0x0000#16, 0x1FFF#16, 0x2000#16, 0x2007#16, 0x4000#16, 0x401F#16], Writable {} a 0x41#8) ∧
    Writable { romWriteMode := .ignore } 0x8000#16 0x41#8 ∧
    (∀ v ∈ [0x1F#8, 0x80#8], Writable {} 0x4014#16 v) ∧
    (∀ a ∈ [0x2008#16, 0x3FFF#16, 0x4020#16, 0x7FFF#16, 0x8000#16, 0xFFFF#16], ¬Writable {} a 0x41#8) ∧
    (∀ v ∈ [0x20#8, 0x7F#8], ¬Writable {} 0x4014#16 v) := by
  unfold Writable Unmapped
  simp only [List.forall_mem_cons, List.not_mem_nil, false_imp_iff, implies_true, and_true]
  and_intros <;> decide +kernel

/-- INC of an address that can be read and written, read and not written, and not read. -/
theorem witness_ModifyMemory :
    (¬Unmapped 0x1FFF#16 ∧ Writable {} 0x1FFF#16 0x41#8) ∧
    (¬Unmapped 0x8000#16 ∧ ¬Writable {} 0x8000#16 0x41#8) ∧ Unmapped 0x2008#16 := by
  unfold Writable Unmapped
  decide +kernel

/-- A branch taken and one not taken. -/
theorem witness_Branches :
    getFlag .c (prog []).cpu.p = false ∧ getFlag .c (prog []).cpu.p ≠ true := by decide

/-- A pointer with both bytes mapped, one with neither, and one whose second byte is unmapped. -/
theorem witness_JumpsAndSubroutines :
    let second := fun nn : Word => joinBytes (highByte nn) (lowByte nn + 1#8)
    (¬Unmapped 0x02FF#16 ∧ ¬Unmapped (second 0x02FF#16)) ∧ Unmapped 0x2008#16 ∧
    (¬Unmapped 0x2007#16 ∧ Unmapped (second 0x2007#16)) := by
  unfold Unmapped
  decide +kernel

/-! ## Witnesses: frames -/

theorem witness_InstructionsWriteOnlyTheirFlagsAndRegisters :
    ∃ t, exec (.ldaImm 0x00#8) (prog []) = .next t ∧
      (.c ∉ flagsWritten (prog []).cfg (.ldaImm 0x00#8)) ∧ (.x ∉ registersWritten (.ldaImm 0x00#8)) :=
  ⟨_, rfl, by decide, by decide⟩

theorem witness_NonStoringInstructionsLeaveMemory :
    (.tax ∈ quietInstrs 0x10#8 0x0010#16 ∧ ∃ t, exec .tax (prog []) = .next t) ∧
    (.pla ∈ pullInstrs ∧ ∃ t, exec .pla (prog []) = .next t) ∧
    (⟨.ldaZp 0x10#8, [0xA5#8, 0x10#8], .mem (.zp 0x10#8), 3, false⟩ ∈ readForms 0x10#8 0x0010#16 ∧
      ∃ t, exec (.ldaZp 0x10#8) (prog []) = .next t) ∧
    (∀ nn ∈ [0x0010#16, 0x2000#16, 0x2001#16, 0x2002#16, 0x2006#16, 0x80FF#16],
      ∃ t, exec (.jmpInd nn) (prog []) = .next t) := by
  refine ⟨⟨by decide, _, rfl⟩, ⟨by decide, _, rfl⟩, ⟨by simp [readForms, ldaForms], _, rfl⟩, ?_⟩
  simp only [List.forall_mem_cons, List.not_mem_nil, false_imp_iff, implies_true, and_true]
  exact ⟨⟨_, rfl⟩, ⟨_, rfl⟩, ⟨_, rfl⟩, ⟨_, rfl⟩, ⟨_, rfl⟩, ⟨_, rfl⟩⟩

theorem witness_StoresChangeOnlyTheirCell :
    ⟨.staZp 0x10#8, [0x85#8, 0x10#8], .zp 0x10#8, 3⟩ ∈
      storeForms 0x10#8 0x0010#16 ++ modifyForms 0x10#8 0x0010#16 ∧
    (∃ t, exec (.staZp 0x10#8) (prog []) = .next t) ∧
    ¬SameCell 0x0011#16 (placeEff (.zp 0x10#8) (prog [])).addr ∧
    (placeEff (.zp 0x10#8) (prog [])).addr ≠ 0x2007#16 :=
  ⟨by simp [storeForms, staForms], ⟨_, rfl⟩, by simp only [SameCell]; decide, by decide⟩

theorem witness_PushesChangeOnlyTheStack :
    (.pha, 1) ∈ pushInstrs 0x0010#16 ∧ (∃ t, exec .pha (prog []) = .next t) ∧
    ∀ k, k < 1 → ¬SameCell 0x01FC#16 (stackAddr ((prog []).cpu.sp - BitVec.ofNat 8 k)) :=
  ⟨by simp [pushInstrs], ⟨_, rfl⟩, by simp only [SameCell]; decide⟩

theorem witness_VideoMemoryNeverReachesTheCpu :
    (prog [0xEA#8]).cfg.ppuDataReadMode = .literal ∧ ∃ t, step (prog [0xEA#8]) = .next t :=
  ⟨rfl, nop_goes_on.2⟩

/-- An accepted image (`imageOf_launches` gives its length), and headers that each check turns away. -/
theorem witness_LaunchAcceptsMapperZeroImages :
    (∃ rest : List Byte, 8 ≤ (imageOf rest).length ∧ ¬(imageOf rest).length < 16 + 16384 + 8192 ∧
      ∃ c, launch {} Launch.zero (imageOf rest) = .next (powerOn {} Launch.zero c)) ∧
    loadImage (List.replicate 16 0x00#8) = .error .corruptRomImage ∧
    loadImage ([0x4E#8, 0x45#8, 0x53#8, 0x1A#8, 0x01#8, 0x01#8, 0x10#8] ++ List.replicate 9 0x00#8) =
      .error (.unsupportedMapper 0x01#8) ∧
    loadImage ([0x4E#8, 0x45#8, 0x53#8, 0x1A#8, 0x03#8, 0x01#8] ++ List.replicate 10 0x00#8) =
      .error (.unsupportedMapper 0x00#8) ∧
    loadImage (imageOf (List.replicate 8 0x00#8)) = .error .corruptRomImage :=
  ⟨⟨List.replicate 24584 0x00#8, (imageOf_launches _ List.length_replicate).1,
    (imageOf_launches _ List.length_replicate).2.1, _,
    (imageOf_launches _ List.length_replicate).2.2⟩, rfl, rfl, rfl, rfl⟩

theorem witness_PowerOnState : Memory.within 8192 [(0, 0x01#8), (8191, 0x02#8)] := by decide

/-! ## One step on small states -/

/-- V2 of 95_test_vectors.md. -/
theorem test_lda_immediate_negative :
    after (codeAt [0xA9#8, 0x80#8] (regs 0x00#8 0x00#8 0x00#8 0xFD#8 0x04#8 0x8000#16) [] {})
      (fun t => t.cpu.a == 0x80#8 && t.cpu.p == 0x84#8 && t.cycles == 2) = true := by
  decide +kernel

/-- V3 of 95_test_vectors.md. -/
theorem test_lda_zpx_wraps :
    after (codeAt [0xB5#8, 0xFF#8] (regs 0x00#8 0x02#8 0x00#8 0xFD#8 0x04#8 0x8000#16) [(0x0001, 0x5A#8)] {})
      (fun t => t.cpu.a == 0x5A#8 && t.cycles == 4) = true := by
  decide +kernel

/-- V5 of 95_test_vectors.md. -/
theorem test_lda_izx_pointer_wraps :
    after (codeAt [0xA1#8, 0xFF#8] (regs 0x00#8 0x00#8 0x00#8 0xFD#8 0x04#8 0x8000#16) [(0x0000, 0x02#8), (0x00FF, 0x34#8), (0x0234, 0x77#8)] {})
      (fun t => t.cpu.a == 0x77#8 && t.cycles == 6) = true := by
  decide +kernel

/-- V6 of 95_test_vectors.md. -/
theorem test_lda_izy_page_penalty :
    after (codeAt [0xB1#8, 0x10#8] (regs 0x00#8 0x00#8 0x01#8 0xFD#8 0x04#8 0x8000#16) [(0x0010, 0xFF#8), (0x0011, 0x02#8), (0x0300, 0x5A#8)] { pagePenalty := .on })
      (fun t => t.cpu.a == 0x5A#8 && t.cycles == 6) = true := by
  decide +kernel

/-- V7 of 95_test_vectors.md. -/
theorem test_ldx_zpy_wraps :
    after (codeAt [0xB6#8, 0xFF#8] (regs 0x00#8 0x09#8 0x02#8 0xFD#8 0x04#8 0x8000#16) [] {})
      (fun t => t.cpu.x == 0x00#8 && getFlag .z t.cpu.p == true && t.cycles == 4) = true := by
  decide +kernel

/-- V8 of 95_test_vectors.md. -/
theorem test_ldy_immediate :
    after (codeAt [0xA0#8, 0xFF#8] (regs 0x00#8 0x00#8 0x00#8 0xFD#8 0x04#8 0x8000#16) [] {})
      (fun t => t.cpu.y == 0xFF#8 && getFlag .n t.cpu.p == true && getFlag .z t.cpu.p == false &&
        t.cycles == 2) = true := by
  decide +kernel

/-- V9 of 95_test_vectors.md. -/
theorem test_sta_absolute_into_a_mirror :
    after (codeAt [0x8D#8, 0x10#8, 0x08#8] (regs 0x33#8 0x00#8 0x00#8 0xFD#8 0x04#8 0x8000#16) [] {})
      (fun t => Memory.read t.ram 0x0010 == 0x33#8 && t.cpu.p == 0x04#8 && t.cycles == 4 &&
        peek 0x1810#16 t == .byte 0x33#8) = true := by
  decide +kernel

/-- V12 of 95_test_vectors.md. -/
theorem test_sty_prg_faults :
    stops (codeAt [0x8C#8, 0x00#8, 0x80#8] (regs 0x00#8 0x00#8 0x00#8 0xFD#8 0x04#8 0x8000#16) [] {}) = some (.addressOutOfRange 0x8000#16 .write) := by
  decide +kernel

/-- V15 of 95_test_vectors.md. -/
theorem test_sta_data_port :
    after { codeAt [0x8D#8, 0x07#8, 0x20#8] (regs 0x2C#8 0x00#8 0x00#8 0xFD#8 0x04#8 0x8000#16) [] {} with cursors := { PpuCursors.reset with vramPtr := 0x2000#16 } }
      (fun t => Memory.read t.ppuReg 7 == 0x2C#8 && Memory.read t.vram 0x2000 == 0x2C#8 &&
        Memory.read t.vram 0x6000 == 0x2C#8 && t.cursors.vramPtr == 0x2001#16 &&
        t.cycles == 4) = true := by
  decide +kernel

/-- V16 of 95_test_vectors.md. -/
theorem test_stx_zp :
    after (codeAt [0x86#8, 0x10#8] (regs 0x00#8 0x05#8 0x00#8 0xFD#8 0x04#8 0x8000#16) [] {})
      (fun t => Memory.read t.ram 0x0010 == 0x05#8 && t.cycles == 3) = true := by
  decide +kernel

/-- V17 of 95_test_vectors.md. -/
theorem test_sty_zpx_wraps :
    after (codeAt [0x94#8, 0xFF#8] (regs 0x00#8 0x01#8 0x7F#8 0xFD#8 0x04#8 0x8000#16) [] {})
      (fun t => Memory.read t.ram 0x0000 == 0x7F#8 && t.cycles == 4) = true := by
  decide +kernel

/-- V18 of 95_test_vectors.md. -/
theorem test_tax :
    after (codeAt [0xAA#8] (regs 0x80#8 0x00#8 0x00#8 0xFD#8 0x04#8 0x8000#16) [] {})
      (fun t => t.cpu.x == 0x80#8 && getFlag .n t.cpu.p == true && getFlag .z t.cpu.p == false &&
        t.cycles == 2) = true := by
  decide +kernel

/-- V19 of 95_test_vectors.md. -/
theorem test_tay :
    after (codeAt [0xA8#8] (regs 0x00#8 0x00#8 0x03#8 0xFD#8 0x04#8 0x8000#16) [] {})
      (fun t => t.cpu.y == 0x00#8 && getFlag .z t.cpu.p == true && t.cycles == 2) = true := by
  decide +kernel

/-- V20 of 95_test_vectors.md. -/
theorem test_txa :
    after (codeAt [0x8A#8] (regs 0x00#8 0x7F#8 0x00#8 0xFD#8 0x04#8 0x8000#16) [] {})
      (fun t => t.cpu.a == 0x7F#8 && getFlag .n t.cpu.p == false && getFlag .z t.cpu.p == false) = true := by
  decide +kernel

/-- V21 of 95_test_vectors.md. -/
theorem test_tya :
    after (codeAt [0x98#8] (regs 0x00#8 0x00#8 0xFF#8 0xFD#8 0x04#8 0x8000#16) [] {})
      (fun t => t.cpu.a == 0xFF#8 && getFlag .n t.cpu.p == true) = true := by
  decide +kernel

/-- V22 of 95_test_vectors.md. -/
theorem test_tsx :
    after (codeAt [0xBA#8] (regs 0x00#8 0x00#8 0x00#8 0xFD#8 0x04#8 0x8000#16) [] {})
      (fun t => t.cpu.x == 0xFD#8 && getFlag .n t.cpu.p == true && getFlag .z t.cpu.p == false) = true := by
  decide +kernel

/-- V23 of 95_test_vectors.md. -/
theorem test_txs_writes_no_flag :
    after (codeAt [0x9A#8] (regs 0x00#8 0x00#8 0x00#8 0xFD#8 0x04#8 0x8000#16) [] {})
      (fun t => t.cpu.sp == 0x00#8 && t.cpu.p == 0x04#8 && t.cycles == 2) = true := by
  decide +kernel

/-- V24 of 95_test_vectors.md. -/
theorem test_pha_wraps :
    after (codeAt [0x48#8] (regs 0x41#8 0x00#8 0x00#8 0x00#8 0x04#8 0x8000#16) [] {})
      (fun t => Memory.read t.ram 0x0100 == 0x41#8 && t.cpu.sp == 0xFF#8 && t.cycles == 3) = true := by
  decide +kernel

/-- V25 of 95_test_vectors.md. -/
theorem test_pla_wraps :
    after (codeAt [0x68#8] (regs 0x00#8 0x00#8 0x00#8 0xFF#8 0x04#8 0x8000#16) [(0x0100, 0x80#8)] {})
      (fun t => t.cpu.sp == 0x00#8 && t.cpu.a == 0x80#8 && getFlag .n t.cpu.p == true && t.cycles == 4) = true := by
  decide +kernel

/-- V26 of 95_test_vectors.md. -/
theorem test_php_nmos :
    after (codeAt [0x08#8] (regs 0x00#8 0x00#8 0x00#8 0xFD#8 0x05#8 0x8000#16) [] { bFlagMode := .nmos })
      (fun t => Memory.read t.ram 0x01FD == 0x35#8) = true := by
  decide +kernel

/-- V27 of 95_test_vectors.md. -/
theorem test_plp_nmos :
    after (codeAt [0x28#8] (regs 0x00#8 0x00#8 0x00#8 0xFC#8 0x04#8 0x8000#16) [(0x01FD, 0xC3#8)] { bFlagMode := .nmos })
      (fun t => t.cpu.p == 0xE3#8) = true := by
  decide +kernel

/-- V29 of 95_test_vectors.md. -/
theorem test_adc_overflow_nmos :
    after (codeAt [0x69#8, 0x50#8] (regs 0x50#8 0x00#8 0x00#8 0xFD#8 0x04#8 0x8000#16) [] { vFlagMode := .nmos })
      (fun t => t.cpu.p == 0xC4#8) = true := by
  decide +kernel

/-- R118: its example 99 + 01, and 0F + 0F worked out by hand, which is no decimal number. -/
theorem test_adc_decimal_corners :
    adcAlu { decimalMode := .nmos } 0x99#8 0x01#8 0x08#8 = (0x00#8, 0x89#8) ∧
    adcAlu { decimalMode := .nmos } 0x0F#8 0x0F#8 0x08#8 = (0x14#8, 0x08#8) := by decide

/-- V33 of 95_test_vectors.md. -/
theorem test_adc_decimal :
    after (codeAt [0x69#8, 0x46#8] (regs 0x58#8 0x00#8 0x00#8 0xFD#8 0x0D#8 0x8000#16) [] { decimalMode := .nmos })
      (fun t => t.cpu.a == 0x05#8 && t.cpu.p == 0x8D#8) = true := by
  decide +kernel

/-- V35 of 95_test_vectors.md. -/
theorem test_sbc_borrow :
    after (codeAt [0xE9#8, 0x01#8] (regs 0x00#8 0x00#8 0x00#8 0xFD#8 0x05#8 0x8000#16) [] {})
      (fun t => t.cpu.a == 0xFF#8 && t.cpu.p == 0x84#8) = true := by
  decide +kernel

/-- V39 of 95_test_vectors.md. -/
theorem test_sbc_decimal_borrow :
    after (codeAt [0xE9#8, 0x01#8] (regs 0x00#8 0x00#8 0x00#8 0xFD#8 0x0D#8 0x8000#16) [] { decimalMode := .nmos })
      (fun t => t.cpu.a == 0x99#8 && t.cpu.p == 0x8C#8) = true := by
  decide +kernel

/-- V40 of 95_test_vectors.md. -/
theorem test_and :
    after (codeAt [0x29#8, 0x0F#8] (regs 0xF0#8 0x00#8 0x00#8 0xFD#8 0x04#8 0x8000#16) [] {})
      (fun t => t.cpu.a == 0x00#8 && getFlag .z t.cpu.p == true && getFlag .n t.cpu.p == false) = true := by
  decide +kernel

/-- V41 of 95_test_vectors.md. -/
theorem test_ora :
    after (codeAt [0x09#8, 0x80#8] (regs 0x01#8 0x00#8 0x00#8 0xFD#8 0x04#8 0x8000#16) [] {})
      (fun t => t.cpu.a == 0x81#8 && getFlag .n t.cpu.p == true) = true := by
  decide +kernel

/-- V42 of 95_test_vectors.md. -/
theorem test_eor :
    after (codeAt [0x49#8, 0xFF#8] (regs 0xFF#8 0x00#8 0x00#8 0xFD#8 0x04#8 0x8000#16) [] {})
      (fun t => t.cpu.a == 0x00#8 && getFlag .z t.cpu.p == true) = true := by
  decide +kernel

/-- V43 of 95_test_vectors.md. -/
theorem test_cmp_sticky_carry :
    after (codeAt [0xC9#8, 0x09#8] (regs 0x05#8 0x00#8 0x00#8 0xFD#8 0x05#8 0x8000#16) [] {})
      (fun t => t.cpu.p == 0x85#8) = true := by
  decide +kernel

/-- V43 of 95_test_vectors.md. -/
theorem test_cmp_nmos_carry :
    after (codeAt [0xC9#8, 0x09#8] (regs 0x05#8 0x00#8 0x00#8 0xFD#8 0x05#8 0x8000#16) [] { cmpCarryMode := .nmos })
      (fun t => t.cpu.p == 0x84#8) = true := by
  decide +kernel

/-- V46 of 95_test_vectors.md. -/
theorem test_cpx_clears_carry :
    after (codeAt [0xE0#8, 0x01#8] (regs 0x00#8 0x00#8 0x00#8 0xFD#8 0x05#8 0x8000#16) [] {})
      (fun t => t.cpu.p == 0x84#8) = true := by
  decide +kernel

/-- V48 of 95_test_vectors.md. -/
theorem test_cpy :
    after (codeAt [0xC0#8, 0x01#8] (regs 0x00#8 0x00#8 0x00#8 0xFD#8 0x05#8 0x8000#16) [] {})
      (fun t => getFlag .c t.cpu.p == false && getFlag .n t.cpu.p == true && getFlag .z t.cpu.p == false) = true := by
  decide +kernel

/-- V49 of 95_test_vectors.md. -/
theorem test_bit_reads_status :
    after { codeAt [0x2C#8, 0x02#8, 0x20#8] (regs 0x00#8 0x00#8 0x00#8 0xFD#8 0x04#8 0x8000#16) [] {} with ppuReg := [(2, 0x80#8)] }
      (fun t => getFlag .z t.cpu.p == true && getFlag .n t.cpu.p == true &&
        Memory.read t.ppuReg 2 == 0x00#8 && t.cycles == 4) = true := by
  decide +kernel

/-- V50 of 95_test_vectors.md. -/
theorem test_bit_overflow_nmos :
    after (codeAt [0x24#8, 0x10#8] (regs 0x01#8 0x00#8 0x00#8 0xFD#8 0x04#8 0x8000#16) [(0x0010, 0x41#8)] { vFlagMode := .nmos })
      (fun t => t.cpu.p == 0x44#8) = true := by
  decide +kernel

/-- V52 of 95_test_vectors.md. -/
theorem test_dec_wraps :
    after (codeAt [0xC6#8, 0x10#8] (regs 0x00#8 0x00#8 0x00#8 0xFD#8 0x04#8 0x8000#16) [] {})
      (fun t => Memory.read t.ram 0x0010 == 0xFF#8 && getFlag .n t.cpu.p == true && t.cycles == 5) = true := by
  decide +kernel

/-- V53 of 95_test_vectors.md. -/
theorem test_inc_absx_takes_no_penalty :
    after (codeAt [0xFE#8, 0xFF#8, 0x10#8] (regs 0x00#8 0x01#8 0x00#8 0xFD#8 0x04#8 0x8000#16) [(0x0100, 0x7F#8)] { pagePenalty := .on })
      (fun t => Memory.read t.ram 0x0100 == 0x80#8 && getFlag .n t.cpu.p == true && t.cycles == 7) = true := by
  decide +kernel

/-- V54 of 95_test_vectors.md. -/
theorem test_inx_wraps :
    after (codeAt [0xE8#8] (regs 0x00#8 0xFF#8 0x00#8 0xFD#8 0x05#8 0x8000#16) [] {})
      (fun t => t.cpu.x == 0x00#8 && t.cpu.p == 0x07#8) = true := by
  decide +kernel

/-- V55 of 95_test_vectors.md. -/
theorem test_iny :
    after (codeAt [0xC8#8] (regs 0x00#8 0x00#8 0x7F#8 0xFD#8 0x04#8 0x8000#16) [] {})
      (fun t => t.cpu.y == 0x80#8 && getFlag .n t.cpu.p == true) = true := by
  decide +kernel

/-- V56 of 95_test_vectors.md. -/
theorem test_dex :
    after (codeAt [0xCA#8] (regs 0x00#8 0x01#8 0x00#8 0xFD#8 0x04#8 0x8000#16) [] {})
      (fun t => t.cpu.x == 0x00#8 && getFlag .z t.cpu.p == true) = true := by
  decide +kernel

/-- V57 of 95_test_vectors.md. -/
theorem test_dey_wraps :
    after (codeAt [0x88#8] (regs 0x00#8 0x00#8 0x00#8 0xFD#8 0x04#8 0x8000#16) [] {})
      (fun t => t.cpu.y == 0xFF#8 && getFlag .n t.cpu.p == true) = true := by
  decide +kernel

/-- V58 of 95_test_vectors.md. -/
theorem test_asl_accumulator :
    after (codeAt [0x0A#8] (regs 0x81#8 0x00#8 0x00#8 0xFD#8 0x04#8 0x8000#16) [] {})
      (fun t => t.cpu.a == 0x02#8 && getFlag .c t.cpu.p == true && getFlag .n t.cpu.p == false &&
        getFlag .z t.cpu.p == false) = true := by
  decide +kernel

/-- V59 of 95_test_vectors.md. -/
theorem test_asl_zp :
    after (codeAt [0x06#8, 0x10#8] (regs 0x00#8 0x00#8 0x00#8 0xFD#8 0x04#8 0x8000#16) [(0x0010, 0x80#8)] {})
      (fun t => Memory.read t.ram 0x0010 == 0x00#8 && getFlag .c t.cpu.p == true &&
        getFlag .z t.cpu.p == true && t.cycles == 5) = true := by
  decide +kernel

/-- V60 of 95_test_vectors.md. -/
theorem test_lsr :
    after (codeAt [0x4A#8] (regs 0x01#8 0x00#8 0x00#8 0xFD#8 0x04#8 0x8000#16) [] {})
      (fun t => t.cpu.a == 0x00#8 && getFlag .c t.cpu.p == true && getFlag .z t.cpu.p == true &&
        getFlag .n t.cpu.p == false) = true := by
  decide +kernel

/-- V61 of 95_test_vectors.md. -/
theorem test_rol :
    after (codeAt [0x2A#8] (regs 0x80#8 0x00#8 0x00#8 0xFD#8 0x04#8 0x8000#16) [] {})
      (fun t => t.cpu.a == 0x00#8 && getFlag .c t.cpu.p == true && getFlag .z t.cpu.p == true) = true := by
  decide +kernel

/-- V62 of 95_test_vectors.md. -/
theorem test_ror :
    after (codeAt [0x6A#8] (regs 0x01#8 0x00#8 0x00#8 0xFD#8 0x05#8 0x8000#16) [] {})
      (fun t => t.cpu.a == 0x80#8 && t.cpu.p == 0x85#8) = true := by
  decide +kernel

/-- V63 of 95_test_vectors.md. -/
theorem test_inc_status_cell :
    after { codeAt [0xEE#8, 0x02#8, 0x20#8] (regs 0x00#8 0x00#8 0x00#8 0xFD#8 0x04#8 0x8000#16) [] {} with ppuReg := [(2, 0x80#8)] }
      (fun t => Memory.read t.ppuReg 2 == 0x81#8 && getFlag .n t.cpu.p == true && t.cycles == 6) = true := by
  decide +kernel

/-- V64 of 95_test_vectors.md. -/
theorem test_bcc_taken :
    after (codeAt [0x90#8, 0x02#8] (regs 0x00#8 0x00#8 0x00#8 0xFD#8 0x04#8 0x8000#16) [] {})
      (fun t => t.cpu.pc == 0x8004#16 && t.cycles == 3) = true := by
  decide +kernel

/-- V65 of 95_test_vectors.md. -/
theorem test_bcs_not_taken :
    after (codeAt [0xB0#8, 0x02#8] (regs 0x00#8 0x00#8 0x00#8 0xFD#8 0x04#8 0x8000#16) [] {})
      (fun t => t.cpu.pc == 0x8002#16 && t.cycles == 2) = true := by
  decide +kernel

/-- V66 of 95_test_vectors.md. -/
theorem test_beq_to_itself :
    after (codeAt [0xF0#8, 0xFE#8] (regs 0x00#8 0x00#8 0x00#8 0xFD#8 0x02#8 0x8010#16) [] {})
      (fun t => t.cpu.pc == 0x8010#16 && t.cycles == 3) = true := by
  decide +kernel

/-- V67 of 95_test_vectors.md. -/
theorem test_bmi_page_change :
    after (codeAt [0x30#8, 0x80#8] (regs 0x00#8 0x00#8 0x00#8 0xFD#8 0x80#8 0x8000#16) [] {})
      (fun t => t.cpu.pc == 0x7F82#16 && t.cycles == 4) = true := by
  decide +kernel

/-- V68 of 95_test_vectors.md. -/
theorem test_bne_wraps :
    after (codeAt [0xD0#8, 0x7F#8] (regs 0x00#8 0x00#8 0x00#8 0xFD#8 0x04#8 0xFFF0#16) [] {})
      (fun t => t.cpu.pc == 0x0071#16 && t.cycles == 4) = true := by
  decide +kernel

/-- V69 of 95_test_vectors.md. -/
theorem test_bpl_back :
    after (codeAt [0x10#8, 0x80#8] (regs 0x00#8 0x00#8 0x00#8 0xFD#8 0x04#8 0x8100#16) [] {})
      (fun t => t.cpu.pc == 0x8082#16 && t.cycles == 4) = true := by
  decide +kernel

/-- V71 of 95_test_vectors.md. -/
theorem test_bvc_taken :
    after (codeAt [0x50#8, 0x04#8] (regs 0x00#8 0x00#8 0x00#8 0xFD#8 0x04#8 0x8000#16) [] {})
      (fun t => t.cpu.pc == 0x8006#16 && t.cycles == 3) = true := by
  decide +kernel

/-- V72 of 95_test_vectors.md. -/
theorem test_bvs_not_taken :
    after (codeAt [0x70#8, 0x04#8] (regs 0x00#8 0x00#8 0x00#8 0xFD#8 0x04#8 0x8000#16) [] {})
      (fun t => t.cpu.pc == 0x8002#16 && t.cycles == 2) = true := by
  decide +kernel

/-- V74 of 95_test_vectors.md. -/
theorem test_jmp_absolute :
    after (codeAt [0x4C#8, 0x0E#8, 0x80#8] (regs 0x00#8 0x00#8 0x00#8 0xFD#8 0x04#8 0x8000#16) [] {})
      (fun t => t.cpu.pc == 0x800E#16 && t.cycles == 3) = true := by
  decide +kernel

/-- V75 of 95_test_vectors.md. -/
theorem test_jmp_indirect_page_wrap :
    after (codeAt [0x6C#8, 0xFF#8, 0x02#8] (regs 0x00#8 0x00#8 0x00#8 0xFD#8 0x04#8 0x8000#16) [(0x0200, 0x12#8), (0x02FF, 0x34#8), (0x0300, 0x56#8)] {})
      (fun t => t.cpu.pc == 0x1234#16 && t.cycles == 5) = true := by
  decide +kernel

/-- V76 of 95_test_vectors.md. -/
theorem test_jsr :
    after (codeAt [0x20#8, 0x20#8, 0x80#8] (regs 0x00#8 0x00#8 0x00#8 0xFF#8 0x04#8 0x800D#16) [] {})
      (fun t => Memory.read t.ram 0x01FF == 0x80#8 && Memory.read t.ram 0x01FE == 0x0F#8 &&
        t.cpu.sp == 0xFD#8 && t.cpu.pc == 0x8020#16 && t.cycles == 6) = true := by
  decide +kernel

/-- V78 of 95_test_vectors.md. -/
theorem test_rts_wraps :
    after (codeAt [0x60#8] (regs 0x00#8 0x00#8 0x00#8 0xFD#8 0x04#8 0x8000#16) [(0x01FE, 0xFF#8), (0x01FF, 0xFF#8)] {})
      (fun t => t.cpu.pc == 0x0000#16) = true := by
  decide +kernel

/-- V79 of 95_test_vectors.md. -/
theorem test_brk :
    after (withIrqVector 0x00#8 0x90#8 (codeAt [0x00#8] (regs 0x00#8 0x00#8 0x00#8 0xFF#8 0x01#8 0x8005#16) [] {}))
      (fun t => Memory.read t.ram 0x01FF == 0x80#8 && Memory.read t.ram 0x01FE == 0x07#8 &&
        Memory.read t.ram 0x01FD == 0x01#8 && t.cpu.sp == 0xFC#8 && t.cpu.p == 0x05#8 &&
        t.cpu.pc == 0x9000#16 && t.cycles == 7) = true := by
  decide +kernel

/-- V80 of 95_test_vectors.md. -/
theorem test_rti :
    after (codeAt [0x40#8] (regs 0x00#8 0x00#8 0x00#8 0xFC#8 0x04#8 0x8000#16) [(0x01FD, 0x01#8), (0x01FE, 0x07#8), (0x01FF, 0x80#8)] {})
      (fun t => t.cpu.p == 0x01#8 && t.cpu.pc == 0x8007#16 && t.cpu.sp == 0xFF#8 && t.cycles == 6) = true := by
  decide +kernel

/-- V81 of 95_test_vectors.md. -/
theorem test_nop :
    after (codeAt [0xEA#8] (regs 0x00#8 0x00#8 0x00#8 0xFD#8 0x04#8 0x8000#16) [] {})
      (fun t => t.cpu.pc == 0x8001#16 && t.cycles == 2 && t.timing.frameDots == 6) = true := by
  decide +kernel

/-- V82 of 95_test_vectors.md. -/
theorem test_clc :
    after (codeAt [0x18#8] (regs 0x00#8 0x00#8 0x00#8 0xFD#8 0x01#8 0x8000#16) [] {})
      (fun t => t.cpu.p == 0x00#8) = true := by
  decide +kernel

/-- V83 of 95_test_vectors.md. -/
theorem test_sec :
    after (codeAt [0x38#8] (regs 0x00#8 0x00#8 0x00#8 0xFD#8 0x00#8 0x8000#16) [] {})
      (fun t => t.cpu.p == 0x01#8) = true := by
  decide +kernel

/-- V84 of 95_test_vectors.md. -/
theorem test_cli_opens_the_gate :
    after { codeAt [0x58#8] (regs 0x00#8 0x00#8 0x00#8 0xFF#8 0x04#8 0x8000#16) [] {} with pending := some .irq }
      (fun t => Memory.read t.ram 0x01FF == 0x80#8 && Memory.read t.ram 0x01FE == 0x01#8 &&
        Memory.read t.ram 0x01FD == 0x00#8 && t.cpu.sp == 0xFC#8 && t.cpu.p == 0x04#8 &&
        t.cycles == 9) = true := by
  decide +kernel

/-- V85 of 95_test_vectors.md. -/
theorem test_sei_closes_the_gate :
    after { codeAt [0x78#8] (regs 0x00#8 0x00#8 0x00#8 0xFD#8 0x00#8 0x8000#16) [] {} with pending := some .irq }
      (fun t => t.cpu.p == 0x04#8 && t.pending == some .irq) = true := by
  decide +kernel

/-- V86 of 95_test_vectors.md. -/
theorem test_cld :
    after (codeAt [0xD8#8] (regs 0x00#8 0x00#8 0x00#8 0xFD#8 0x08#8 0x8000#16) [] {})
      (fun t => t.cpu.p == 0x00#8) = true := by
  decide +kernel

/-- V87 of 95_test_vectors.md. -/
theorem test_sed :
    after (codeAt [0xF8#8] (regs 0x00#8 0x00#8 0x00#8 0xFD#8 0x00#8 0x8000#16) [] {})
      (fun t => t.cpu.p == 0x08#8) = true := by
  decide +kernel

/-- V88 of 95_test_vectors.md. -/
theorem test_clv :
    after (codeAt [0xB8#8] (regs 0x00#8 0x00#8 0x00#8 0xFD#8 0x40#8 0x8000#16) [] {})
      (fun t => t.cpu.p == 0x00#8) = true := by
  decide +kernel

/-- V89 of 95_test_vectors.md. -/
theorem test_unknown_opcode :
    stops (codeAt [0x02#8] (regs 0x00#8 0x00#8 0x00#8 0xFD#8 0x04#8 0x8000#16) [] {}) = some (.unknownOpcode 0x8000#16 0x02#8) := by
  decide +kernel

/-- V90 of 95_test_vectors.md. -/
theorem test_removed_opcode :
    stops (codeAt [0x6A#8] (regs 0x00#8 0x00#8 0x00#8 0xFD#8 0x04#8 0x8000#16) [] { opcodesRemoved := [0x6A#8] }) = some (.unknownOpcode 0x8000#16 0x6A#8) := by
  decide +kernel

/-- V91 of 95_test_vectors.md. -/
theorem test_fetch_wraps_the_address_space :
    after (codeAt [0xA9#8] (regs 0x05#8 0x00#8 0x00#8 0xFD#8 0x04#8 0xFFFF#16) [] {})
      (fun t => t.cpu.a == 0x00#8 && t.cpu.pc == 0x0001#16) = true := by
  decide +kernel

/-- V95 of 95_test_vectors.md. -/
theorem test_nmi_nmos_ignores_i :
    after { codeAt [0xEA#8] (regs 0x00#8 0x00#8 0x00#8 0xFD#8 0x04#8 0x8000#16) [] { intMode := .nmos } with pending := some .nmi }
      (fun t => Memory.read t.ram 0x01FD == 0x80#8 && Memory.read t.ram 0x01FC == 0x01#8 &&
        Memory.read t.ram 0x01FB == 0x04#8 && t.cpu.sp == 0xFA#8 && t.cycles == 9 &&
        t.pending == none) = true := by
  decide +kernel

/-- V96 of 95_test_vectors.md. -/
theorem test_reset_nmos_writes_no_stack :
    after { codeAt [0xEA#8] (regs 0x00#8 0x00#8 0x00#8 0xFD#8 0x00#8 0x8000#16) [] { intMode := .nmos } with pending := some .reset }
      (fun t => t.cpu.sp == 0xFA#8 && t.cpu.p == 0x04#8 && Memory.read t.ram 0x01FD == 0x00#8) = true := by
  decide +kernel

/-- V113 of 95_test_vectors.md. -/
theorem test_dma_from_registers :
    stops (codeAt [0x8D#8, 0x14#8, 0x40#8] (regs 0x20#8 0x00#8 0x00#8 0xFD#8 0x04#8 0x8000#16) [] {}) = some (.addressOutOfRange 0x2008#16 .read) := by
  decide +kernel

end Sys2Proof.Tests
end

section
/-! PROOF. The bits of `P`: each flag is one bit, the flags are independent, and together they are the
whole register (R11, R19, R21, R26). -/

namespace Sys2Proof.Machine

open Sys2Proof

/-- Writing a flag writes that flag alone. -/
theorem getFlag_setFlag (f g : Flag) (b : Bool) (p : Byte) :
    getFlag g (setFlag f b p) = if f = g then b else getFlag g p := by
  split
  · subst g
    exact getFlag_setFlag_same f b p
  · exact getFlag_setFlag_ne ‹f ≠ g› b p

/-- The eight flags are all of `P`. -/
theorem eq_of_getFlag_eq {p q : Byte} (h : ∀ f, getFlag f p = getFlag f q) : p = q := by
  simp only [getFlag_eq_getLsbD] at h
  refine BitVec.eq_of_getLsbD_eq fun i hi => ?_
  interval_cases i
  · exact h .c
  · exact h .z
  · exact h .i
  · exact h .d
  · exact h .b
  · exact h .bit5
  · exact h .v
  · exact h .n

theorem getFlag_z_setNZ (v p : Byte) : getFlag .z (setNZ v p) = decide (v.toNat = 0) := by
  rw [setNZ, getFlag_setFlag_ne (by decide), getFlag_setFlag_same, Bool.beq_eq_decide_eq]
  exact decide_eq_decide.2 BitVec.toNat_inj.symm

theorem getFlag_n_setNZ (v p : Byte) : getFlag .n (setNZ v p) = decide (0x7F < v.toNat) := by
  rw [setNZ, getFlag_setFlag_same, BitVec.msb_eq_decide]
  exact decide_eq_decide.2 Nat.lt_iff_add_one_le.symm

/-- Settles O37, from the bit of each flag and what a write of one flag leaves in the others. -/
theorem statusBitsAreIndependent : Obligations.StatusBitsAreIndependent := by
  unfold Obligations.StatusBitsAreIndependent
  refine ⟨fun p => ?_, getFlag_setFlag, fun p q => eq_of_getFlag_eq, fun v p =>
    ⟨getFlag_z_setNZ v p, getFlag_n_setNZ v p, fun f hz hn => getFlag_setNZ_ne hz hn v p⟩⟩
  simp only [getFlag_eq_getLsbD, and_self]

end Sys2Proof.Machine
end

section
/-! PROOF. How a step can stop: which faults an access, an instruction, the fetch and a step report, and that
what follows an instruction always goes on (R13, R161 to R164). -/

namespace Sys2Proof.Machine

open Sys2Proof

/-! ## The causes -/

/-- A fault record a bus access may raise under these parameters (R162). -/
def BusFault (cfg : Config) : FaultRecord → Prop
  | .addressOutOfRange a .read => Unmapped a
  | .addressOutOfRange a .write => Unmapped a ∨ (0x8000 ≤ a.toNat ∧ cfg.romWriteMode = .fault)
  | .unknownOpcode _ _ => False

/-- The byte read at PC has no row that the parameters admit (R163). -/
def UnknownAtPc (s : State) (r : FaultRecord) : Prop :=
  ∃ op t, r = .unknownOpcode s.cpu.pc op ∧ read8 s.cpu.pc s = .ok op t ∧ admittedRow s.cfg op = none

/-- The outcome goes on, or is a fault for a cause `C` whose earlier accesses kept the frame (R13, R164). -/
def StopsOnlyFor (C : FaultRecord → Prop) (s : State) (o : Result) : Prop :=
  (∃ t, o = .next t) ∨ ∃ r t, o = .fault (faultOf r s t) ∧ C r ∧ AccessFrame s t

theorem StopsOnlyFor.not_refused {C : FaultRecord → Prop} {s : State} {o : Result}
    (h : StopsOnlyFor C s o) (r : Refusal) : o ≠ .refused r := by
  rintro rfl
  obtain ⟨t, ht⟩ | ⟨f, t, ht, -⟩ := h
  · cases ht
  · cases ht

@[simp] theorem faultRecord_faultOf (r : FaultRecord) (s t : State) :
    faultRecord (faultOf r s t) = r := by
  cases r <;> rfl

/-- The record of a fault is one of the causes. -/
theorem StopsOnlyFor.cause {C : FaultRecord → Prop} {s : State} {o : Result} {f : Fault}
    (h : StopsOnlyFor C s o) (hf : o = .fault f) : C (faultRecord f) := by
  subst hf
  obtain ⟨t, ht⟩ | ⟨r, t, ht, hr, -⟩ := h
  · cases ht
  · cases ht
    rwa [faultRecord_faultOf]

/-- A fault keeps the registers of the start of the step, whichever state names them. -/
theorem faultOf_congr {s t : State} (h : t.cpu = s.cpu) (r : FaultRecord) (u : State) :
    faultOf r t u = faultOf r s u := by
  simp only [faultOf, h]

/-! ## Accesses -/

theorem read8_err_cause {a : Word} {s t : State} {r : FaultRecord} (h : read8 a s = .err r t)
    (cfg : Config) : BusFault cfg r ∧ AccessFrame s t := by
  obtain ⟨ha, rfl, rfl⟩ := read8_err h
  exact ⟨ha, AccessFrame.refl t⟩

theorem write8_err_cause {a : Word} {v : Byte} {s t : State} {r : FaultRecord}
    (h : write8 a v s = .err r t) : BusFault s.cfg r ∧ AccessFrame s t := by
  refine ⟨?_, by simpa [h] using write8_frame a v s⟩
  obtain ⟨b, rfl, hb⟩ | ⟨rfl, ha⟩ := write8_err h
  · exact hb
  · exact ha

theorem sourceRead_err_cause {src : Source} {s t : State} {r : FaultRecord}
    (h : sourceRead src s = .err r t) (cfg : Config) : BusFault cfg r ∧ AccessFrame s t := by
  cases src with
  | imm n => cases h
  | mem p => exact read8_err_cause h cfg

/-! ## The access classes -/

theorem readClass_stops (src : Source) (op : Config → Byte → Cpu → Cpu) (s : State) :
    StopsOnlyFor (BusFault s.cfg) s (readClass src op s) := by
  cases h : sourceRead src s with
  | ok v t => exact .inl ⟨_, readClass_ok h⟩
  | err r t => exact .inr ⟨r, t, readClass_err h, sourceRead_err_cause h s.cfg⟩

theorem writeClass_stops (p : Place) (value : Cpu → Byte) (s : State) :
    StopsOnlyFor (BusFault s.cfg) s (writeClass p value s) := by
  cases h : write8 (placeEff p s).addr (value s.cpu) s with
  | ok v t => exact .inl ⟨_, writeClass_ok h⟩
  | err r t => exact .inr ⟨r, t, writeClass_err h, write8_err_cause h⟩

theorem modifyClass_stops (p : Place) (alu : Byte → Byte → Byte × Byte) (s : State) :
    StopsOnlyFor (BusFault s.cfg) s (modifyClass p alu s) := by
  cases hr : read8 (placeEff p s).addr s with
  | err r t => exact .inr ⟨r, t, modifyClass_read_err hr, read8_err_cause hr s.cfg⟩
  | ok v t =>
    have hf := read8_ok_frame hr
    cases hw : write8 (placeEff p s).addr (alu v s.cpu.p).1 t with
    | ok _ u => exact .inl ⟨_, modifyClass_ok hr hw⟩
    | err r u =>
      obtain ⟨hb, hg⟩ := write8_err_cause hw
      exact .inr ⟨r, u, modifyClass_write_err hr hw, hf.cfg ▸ hb, hf.trans hg⟩

theorem execJmpInd_stops (nn : Word) (s : State) :
    StopsOnlyFor (BusFault s.cfg) s (execJmpInd nn s) := by
  unfold execJmpInd readJumpPointer
  cases hlo : read8 nn s with
  | err r t => exact .inr ⟨r, t, rfl, read8_err_cause hlo s.cfg⟩
  | ok lo t =>
    simp only [Res.andThen_ok]
    cases hhi : read8 (joinBytes (highByte nn) (lowByte nn + 1#8)) t with
    | ok hi u => exact .inl ⟨_, rfl⟩
    | err r u =>
      obtain ⟨hb, hg⟩ := read8_err_cause hhi s.cfg
      exact .inr ⟨r, u, rfl, hb, (read8_ok_frame hlo).trans hg⟩

/-! ## The instructions -/

/-- What the meaning of an instruction is made of: an access class at a memory operand (R91), the pointer
reads of JMP (ind), or work on registers, an immediate and the stack alone, which always completes. -/
inductive ExecShape (i : Instr) : Prop where
  | read (p : Place) (op : Config → Byte → Cpu → Cpu) (h : ∀ s, exec i s = readClass (.mem p) op s)
  | write (p : Place) (value : Cpu → Byte) (h : ∀ s, exec i s = writeClass p value s)
  | modify (p : Place) (alu : Byte → Byte → Byte × Byte) (h : ∀ s, exec i s = modifyClass p alu s)
  | pointer (nn : Word) (h : ∀ s, exec i s = execJmpInd nn s)
  | completes (h : ∀ s, ∃ t, exec i s = .next t)

/-- An instruction whose one access completes goes on. -/
theorem finish_andThen_next {α : Type} {r : Res α} {v : α} {t : State} (h : r = .ok v t) (s : State)
    (k : α → State → State) : ∃ u, finish s (r.andThen fun v t => .ok () (k v t)) = .next u :=
  ⟨k v t, by rw [h]; rfl⟩

theorem execShape (i : Instr) : ExecShape i := by
  cases i
  case ldaIzx | ldaZp | ldaAbs | ldaIzy | ldaZpx | ldaAby | ldaAbx =>
    exact .read _ _ fun s => show ldaFrom _ s = _ from rfl
  case ldxZp | ldxAbs | ldxZpy | ldxAby => exact .read _ _ fun s => show ldxFrom _ s = _ from rfl
  case ldyZp | ldyAbs | ldyZpx | ldyAbx => exact .read _ _ fun s => show ldyFrom _ s = _ from rfl
  case adcIzx | adcZp | adcAbs | adcIzy | adcZpx | adcAby | adcAbx =>
    exact .read _ _ fun s => show adcFrom _ s = _ from rfl
  case sbcIzx | sbcZp | sbcAbs | sbcIzy | sbcZpx | sbcAby | sbcAbx =>
    exact .read _ _ fun s => show sbcFrom _ s = _ from rfl
  case andIzx | andZp | andAbs | andIzy | andZpx | andAby | andAbx =>
    exact .read _ _ fun s => show andFrom _ s = _ from rfl
  case oraIzx | oraZp | oraAbs | oraIzy | oraZpx | oraAby | oraAbx =>
    exact .read _ _ fun s => show oraFrom _ s = _ from rfl
  case eorIzx | eorZp | eorAbs | eorIzy | eorZpx | eorAby | eorAbx =>
    exact .read _ _ fun s => show eorFrom _ s = _ from rfl
  case cmpIzx | cmpZp | cmpAbs | cmpIzy | cmpZpx | cmpAby | cmpAbx =>
    exact .read _ _ fun s => show cmpFrom _ s = _ from rfl
  case cpxZp | cpxAbs => exact .read _ _ fun s => show cpxFrom _ s = _ from rfl
  case cpyZp | cpyAbs => exact .read _ _ fun s => show cpyFrom _ s = _ from rfl
  case bitZp | bitAbs => exact .read _ _ fun s => show bitFrom _ s = _ from rfl
  case staIzx | staZp | staAbs | staIzy | staZpx | staAby | staAbx =>
    exact .write _ _ fun s => show staTo _ s = _ from rfl
  case stxZp | stxAbs | stxZpy => exact .write _ _ fun s => show stxTo _ s = _ from rfl
  case styZp | styAbs | styZpx => exact .write _ _ fun s => show styTo _ s = _ from rfl
  case incZp | incAbs | incZpx | incAbx => exact .modify _ _ fun s => show incAt _ s = _ from rfl
  case decZp | decAbs | decZpx | decAbx => exact .modify _ _ fun s => show decAt _ s = _ from rfl
  case aslZp | aslAbs | aslZpx | aslAbx => exact .modify _ _ fun s => show aslAt _ s = _ from rfl
  case lsrZp | lsrAbs | lsrZpx | lsrAbx => exact .modify _ _ fun s => show lsrAt _ s = _ from rfl
  case rolZp | rolAbs | rolZpx | rolAbx => exact .modify _ _ fun s => show rolAt _ s = _ from rfl
  case rorZp | rorAbs | rorZpx | rorAbx => exact .modify _ _ fun s => show rorAt _ s = _ from rfl
  case jmpInd nn => exact .pointer nn fun _ => rfl
  case ldaImm | ldxImm | ldyImm | adcImm | sbcImm | andImm | oraImm | eorImm | cmpImm | cpxImm | cpyImm
      | tax | tay | txa | tya | tsx | txs | inx | iny | dex | dey | aslAcc | lsrAcc | rolAcc | rorAcc
      | bcc | bcs | beq | bmi | bne | bpl | bvc | bvs | jmpAbs | nop
      | clc | sec | cli | sei | cld | sed | clv =>
    exact .completes fun s => ⟨_, rfl⟩
  case pha | php => exact .completes fun s => finish_andThen_next (push_eq _ s) s _
  case pla | plp => exact .completes fun s => finish_andThen_next (pull_eq s) s _
  case jsr nn => exact .completes fun s => finish_andThen_next (push16_eq _ s) s _
  case rts => exact .completes fun s => finish_andThen_next (pull16_eq s) s _
  case brk =>
    exact .completes fun s => finish_andThen_next (enterHandler_eq _ _ (by decide) (by decide) s) s _
  case rti => exact .completes fun s => finish_andThen_next (returnFromInterrupt_eq s) s _

/-- An instruction goes on or stops for the fault of one of its accesses (R13, R162). -/
theorem exec_stops (i : Instr) (s : State) : StopsOnlyFor (BusFault s.cfg) s (exec i s) := by
  cases execShape i with
  | read p op h => exact h s ▸ readClass_stops (.mem p) op s
  | write p value h => exact h s ▸ writeClass_stops p value s
  | modify p alu h => exact h s ▸ modifyClass_stops p alu s
  | pointer nn h => exact h s ▸ execJmpInd_stops nn s
  | completes h => exact .inl (h s)

/-! ## The opcodes -/

/-- The opcodes of the rows, in rising order, are the documented ones (R92). Compared as numbers: the
kernel sorts them at once, where a search of the table for every byte takes it long. -/
theorem sorted_opcodes : (opcodeTable.map (·.opcode.toNat)).insertionSort (· ≤ ·) =
    documentedOpcodes.map BitVec.toNat := by
  decide +kernel

/-- The opcode map has a row for exactly the documented opcodes (R92). -/
theorem rowOf_isSome (op : Byte) : (rowOf op).isSome = documentedOpcodes.contains op := by
  have h : op.toNat ∈ opcodeTable.map (·.opcode.toNat) ↔
      op.toNat ∈ documentedOpcodes.map BitVec.toNat := by
    rw [← sorted_opcodes, List.mem_insertionSort]
  simp only [List.mem_map, BitVec.toNat_inj, exists_eq_right] at h
  rw [Bool.eq_iff_iff, List.contains_iff_mem, ← h]
  simp [rowOf]

/-- An opcode byte has no admitted row only where it lies outside `OPCODE_SET` (R7, R93). -/
theorem admittedRow_eq_none {cfg : Config} {op : Byte} (h : admittedRow cfg op = none) :
    documentedOpcodes.contains op = false ∨ op ∈ cfg.opcodesRemoved := by
  unfold admittedRow at h
  split at h
  · exact .inl (by rw [← rowOf_isSome, h]; rfl)
  · exact .inr (by simpa [Config.admits] using ‹¬cfg.admits op = true›)

/-! ## The fetch -/

theorem readBytes_frame (n : Nat) (a : Word) (s : State) : AccessFrame s (readBytes n a s).after := by
  induction n generalizing a s with
  | zero => exact AccessFrame.refl s
  | succ n ih =>
    refine Res.andThen_after (P := AccessFrame s) (read8_frame a s) fun b t hb => ?_
    have ht := (read8_ok_frame hb).trans (ih (a + 1#16) t)
    exact Res.andThen_after (P := AccessFrame s) ht fun bs u hbs => by simpa [hbs] using ht

theorem readBytes_length {n : Nat} {a : Word} {s t : State} {bs : List Byte}
    (h : readBytes n a s = .ok bs t) : bs.length = n := by
  induction n generalizing a s t bs with
  | zero => cases h; rfl
  | succ n ih =>
    obtain ⟨b, m, -, h⟩ := Res.andThen_eq_ok h
    obtain ⟨cs, u, hcs, h⟩ := Res.andThen_eq_ok h
    cases h
    exact congrArg (· + 1) (ih hcs)

theorem readBytes_err_cause {n : Nat} {a : Word} {s t : State} {r : FaultRecord}
    (h : readBytes n a s = .err r t) (cfg : Config) : BusFault cfg r := by
  induction n generalizing a s with
  | zero => cases h
  | succ n ih =>
    obtain h | ⟨b, m, -, h⟩ := Res.andThen_eq_err h
    · exact (read8_err_cause h cfg).1
    obtain h | ⟨bs, u, -, h⟩ := Res.andThen_eq_err h
    · exact ih h
    · cases h

/-- A format given its operand bytes makes an instruction (R75, R77). -/
theorem takeOperands_complete {fmt : Format} {bs : List Byte} (h : bs.length = formatLength fmt - 1) :
    ∃ i, takeOperands fmt bs = .ok (i, []) := by
  cases fmt with
  | one i => exact ⟨i, by rw [List.eq_nil_of_length_eq_zero h]; rfl⟩
  | two mk =>
    obtain ⟨b, rfl⟩ := List.length_eq_one_iff.1 h
    exact ⟨mk b, rfl⟩
  | three mk =>
    obtain ⟨b, c, rfl⟩ := List.length_eq_two.1 h
    exact ⟨mk (joinBytes c b), rfl⟩

/-- The fetch, once the opcode byte is read and has a row: the operand bytes, then the instruction. -/
theorem fetch_of_row {s t : State} {op : Byte} {row : Row} (hop : read8 s.cpu.pc s = .ok op t)
    (hrow : admittedRow s.cfg op = some row) :
    (∃ i u, fetch s = .ok i u ∧ AccessFrame s u) ∨
      ∃ r u, fetch s = .err r u ∧ BusFault s.cfg r ∧ AccessFrame s u := by
  have hframe := (read8_ok_frame hop).trans
    (readBytes_frame (formatLength row.format - 1) (s.cpu.pc + 1#16) t)
  unfold fetch
  simp only [hop, Res.andThen_ok, hrow]
  cases hbs : readBytes (formatLength row.format - 1) (s.cpu.pc + 1#16) t with
  | err r u =>
    exact .inr ⟨r, u, rfl, readBytes_err_cause hbs s.cfg, by simpa [hbs] using hframe⟩
  | ok bs u =>
    obtain ⟨i, hi⟩ := takeOperands_complete (readBytes_length hbs)
    exact .inl ⟨i, u, by simp only [Res.andThen_ok, hi], by simpa [hbs] using hframe⟩

/-- The fetch gives an instruction, or stops for an unmapped address or for the byte at PC (R97, R163). -/
theorem fetch_stops (s : State) :
    (∃ i u, fetch s = .ok i u ∧ AccessFrame s u) ∨
      ∃ r u, fetch s = .err r u ∧ (BusFault s.cfg r ∨ UnknownAtPc s r) ∧ AccessFrame s u := by
  cases hop : read8 s.cpu.pc s with
  | err r u =>
    obtain ⟨hb, hf⟩ := read8_err_cause hop s.cfg
    exact .inr ⟨r, u, by simp only [fetch, hop, Res.andThen_err], .inl hb, hf⟩
  | ok op t =>
    cases hrow : admittedRow s.cfg op with
    | none =>
      exact .inr ⟨.unknownOpcode s.cpu.pc op, t, by simp only [fetch, hop, Res.andThen_ok, hrow],
        .inr ⟨op, t, rfl, hop, hrow⟩, read8_ok_frame hop⟩
    | some row =>
      exact (fetch_of_row hop hrow).imp_right fun ⟨r, u, h, hb, hf⟩ => ⟨r, u, h, .inl hb, hf⟩

/-! ## The step -/

/-- What follows an instruction always goes on: interrupt service cannot fault (R164, R174). -/
theorem afterInstruction_next (s : State) : ∃ t, afterInstruction s = .next t := by
  unfold afterInstruction poll
  split
  · exact ⟨_, rfl⟩
  · split
    · next k _ _ =>
      obtain ⟨t, ht⟩ := service_ok k (ppuUpdate s.cycles s)
      unfold serviceAndUpdate
      rw [ht]
      exact ⟨_, rfl⟩
    · exact ⟨_, rfl⟩

theorem step_running {s : State} (h : Running s) : step s = runFetched s (fetch s) := by
  obtain ⟨hf, hp⟩ := h
  simp [step, hf, hp]

/-- A step of a running core goes on, or stops for a bus fault or for the byte at its PC. -/
theorem step_stops {s : State} (h : Running s) :
    StopsOnlyFor (fun r => BusFault s.cfg r ∨ UnknownAtPc s r) s (step s) := by
  rw [step_running h]
  obtain ⟨i, t, ht, hf⟩ | ⟨r, t, ht, hc, hf⟩ := fetch_stops s
  · rw [ht]
    obtain ⟨u, hu⟩ | ⟨r, u, hu, hb, hg⟩ := exec_stops i t
    · obtain ⟨v, hv⟩ := afterInstruction_next u
      exact .inl ⟨v, by simp only [runFetched, hu, hv]⟩
    · refine .inr ⟨r, u, ?_, .inl (hf.cfg ▸ hb), hf.trans hg⟩
      simp only [runFetched, hu, faultOf_congr hf.cpu]
  · exact .inr ⟨r, t, by rw [ht]; rfl, hc, hf⟩

/-- No step refuses: a faulted core reports its fault, a paused one does nothing (R13, R164, R175). -/
theorem step_not_refused (s : State) (r : Refusal) : step s ≠ .refused r := by
  cases hf : s.fault with
  | some f => simp [step, hf, stillFaulted]
  | none =>
    cases hp : s.paused with
    | true => simp [step, hf, hp, whilePaused]
    | false => exact (step_stops ⟨hf, hp⟩).not_refused r

/-- An address fault of a running core is a fault of the bus (R162). -/
theorem step_busFault {s left : State} {a : Word} {d : Dir} (hrun : Running s)
    (h : step s = .fault (.addressOutOfRange a d left)) :
    BusFault s.cfg (.addressOutOfRange a d) := by
  obtain hb | ⟨op, t, hr, -⟩ := (step_stops hrun).cause h
  · exact hb
  · cases hr

/-- Settles O9: the faults of a running core are those of its fetch and of its instruction's accesses. -/
theorem stepStopsOnlyForTheSpecsCauses : Obligations.StepStopsOnlyForTheSpecsCauses := by
  unfold Obligations.StepStopsOnlyForTheSpecsCauses
  refine fun s => ⟨step_not_refused s, fun hrun => ⟨fun a left h => ?_, fun a left h => ?_,
    fun pc op left h => ?_⟩⟩
  · exact step_busFault hrun h
  · exact step_busFault hrun h
  · obtain hb | ⟨op, t, hr, hop, hrow⟩ := (step_stops hrun).cause h
    · exact hb.elim
    · cases hr
      exact ⟨rfl, ⟨t, hop⟩, admittedRow_eq_none hrow⟩

end Sys2Proof.Machine
end

section
/-! PROOF. What an instruction that goes on may change: the flags and registers its rule names, PC, the
reported cycles, and what its accesses may change (R15 to R19, R27, R98). -/

namespace Sys2Proof.Machine

open Sys2Proof

/-! ## Accesses -/

/-- What accesses do to the machine: they keep the frame, and the memories' form (R32, R53, R54). -/
structure Accessed (s t : State) : Prop where
  frame  : AccessFrame s t
  memory : MemOk s → MemOk t

theorem Accessed.refl (s : State) : Accessed s s := ⟨AccessFrame.refl s, id⟩

theorem Accessed.trans {s t u : State} (h : Accessed s t) (g : Accessed t u) : Accessed s u :=
  ⟨h.frame.trans g.frame, g.memory ∘ h.memory⟩

theorem Accessed.andThen {α β : Type} {s : State} {r : Res α} {k : α → State → Res β}
    (hr : Accessed s r.after) (hk : ∀ v t, r = .ok v t → Accessed t (k v t).after) :
    Accessed s (r.andThen k).after :=
  Res.andThen_after (P := Accessed s) hr fun v t h =>
    (by simpa [h] using hr : Accessed s t).trans (hk v t h)

theorem read8_accessed (a : Word) (s : State) : Accessed s (read8 a s).after :=
  ⟨read8_frame a s, fun h => read8_memOk h a⟩

theorem write8_accessed (a : Word) (v : Byte) (s : State) : Accessed s (write8 a v s).after :=
  ⟨write8_frame a v s, fun h => write8_memOk h a v⟩

theorem sourceRead_accessed (src : Source) (s : State) : Accessed s (sourceRead src s).after := by
  cases src with
  | imm n => exact Accessed.refl s
  | mem p => exact read8_accessed _ s

theorem readJumpPointer_accessed (nn : Word) (s : State) :
    Accessed s (readJumpPointer nn s).after :=
  (read8_accessed nn s).andThen fun _ t _ =>
    (read8_accessed _ t).andThen fun _ u _ => Accessed.refl u

theorem pushed_accessed (s : State) (sp v : Byte) :
    Accessed s { s with ram := pushed s.ram sp v } :=
  ⟨⟨rfl, rfl, rfl, rfl, rfl, rfl, rfl, rfl⟩, fun h => pushed_memOk h sp v⟩

theorem pushed_twice_accessed (s : State) (sp sp' v v' : Byte) :
    Accessed s { s with ram := pushed (pushed s.ram sp v) sp' v' } :=
  (pushed_accessed s sp v).trans (pushed_accessed _ sp' v')

/-! ## Flags -/

/-- The bits of `P` outside `flags` are the same in `p` and `q`. -/
def FlagsKept (flags : List Flag) (p q : Byte) : Prop :=
  ∀ f, f ∉ flags → getFlag f q = getFlag f p

section
variable {flags : List Flag} {p q : Byte}

theorem FlagsKept.refl (flags : List Flag) (p : Byte) : FlagsKept flags p p := fun _ _ => rfl

theorem FlagsKept.setFlag (h : FlagsKept flags p q) {f : Flag} (hf : f ∈ flags) (b : Bool) :
    FlagsKept flags p (setFlag f b q) := fun g hg => by
  rw [getFlag_setFlag_ne (ne_of_mem_of_not_mem hf hg), h g hg]

theorem FlagsKept.setNZ (h : FlagsKept flags p q) (hn : .n ∈ flags) (hz : .z ∈ flags) (v : Byte) :
    FlagsKept flags p (setNZ v q) :=
  (h.setFlag hz _).setFlag hn _

theorem FlagsKept.setV (h : FlagsKept flags p q) {cfg : Config}
    (hv : cfg.vFlagMode = .nmos → .v ∈ flags) (b : Bool) : FlagsKept flags p (setV cfg b q) := by
  unfold Machine.setV
  split
  · exact h
  · exact h.setFlag (hv ‹_›) b

end

/-- The V flag, where the parameters have one (R25). -/
def overflowFlags (cfg : Config) : List Flag := if cfg.vFlagMode = .nmos then [.v] else []

theorem mem_overflowFlags {cfg : Config} (h : cfg.vFlagMode = .nmos) : .v ∈ overflowFlags cfg := by
  simp [overflowFlags, h]

theorem setNZ_flagsKept (v p : Byte) : FlagsKept [.n, .z] p (setNZ v p) :=
  (FlagsKept.refl _ p).setNZ (by decide) (by decide) v

theorem addBinary_flagsKept (cfg : Config) (a m p : Byte) :
    FlagsKept ([.n, .z, .c] ++ overflowFlags cfg) p (addBinary cfg a m p).2 :=
  (((FlagsKept.refl _ p).setV (fun h => by simp [mem_overflowFlags h]) _).setFlag
    (by simp) _).setNZ (by simp) (by simp) _

theorem adcAlu_flagsKept (cfg : Config) (a m p : Byte) :
    FlagsKept ([.n, .z, .c] ++ overflowFlags cfg) p (adcAlu cfg a m p).2 := by
  unfold adcAlu
  split
  · exact ((((FlagsKept.refl _ p).setFlag (by simp) _).setFlag (by simp) _).setFlag
      (by simp) _).setV (fun h => by simp [mem_overflowFlags h]) _
  · exact addBinary_flagsKept cfg a m p

theorem sbcAlu_flagsKept (cfg : Config) (a m p : Byte) :
    FlagsKept ([.n, .z, .c] ++ overflowFlags cfg) p (sbcAlu cfg a m p).2 := by
  unfold sbcAlu
  split
  · exact addBinary_flagsKept cfg a (~~~m) p
  · exact addBinary_flagsKept cfg a (~~~m) p

theorem compareFlags_flagsKept (r m p : Byte) :
    FlagsKept [.n, .z, .c] p (compareFlags r m p) :=
  ((FlagsKept.refl _ p).setNZ (by decide) (by decide) _).setFlag (by decide) _

theorem cmpFlags_flagsKept (cfg : Config) (a m p : Byte) :
    FlagsKept [.n, .z, .c] p (cmpFlags cfg a m p) := by
  have h := (FlagsKept.refl [.n, .z, .c] p).setNZ (by decide) (by decide) (a - m)
  unfold cmpFlags
  split
  · split
    · exact h.setFlag (by decide) true
    · exact h
  · exact compareFlags_flagsKept a m p

theorem bitFlags_flagsKept (cfg : Config) (a m p : Byte) :
    FlagsKept ([.n, .z] ++ overflowFlags cfg) p (bitFlags cfg a m p) :=
  (((FlagsKept.refl _ p).setFlag (by simp) _).setFlag (by simp) _).setV
    (fun h => by simp [mem_overflowFlags h]) _

/-- The four shifts and rotates write C and then N and Z (R134 to R137). -/
theorem setNZ_setFlag_c_flagsKept (v : Byte) (b : Bool) (p : Byte) :
    FlagsKept [.n, .z, .c] p (setNZ v (setFlag .c b p)) :=
  ((FlagsKept.refl _ p).setFlag (by decide) b).setNZ (by decide) (by decide) v

/-! ## Registers -/

/-- The registers A, X, Y and S outside `regs` are the same in `c` and `d`. -/
def RegsKept (regs : List Reg) (c d : Cpu) : Prop := ∀ r, r ∉ regs → d.reg r = c.reg r

theorem regsKept_iff {regs : List Reg} {c d : Cpu} : RegsKept regs c d ↔
    (.a ∉ regs → d.a = c.a) ∧ (.x ∉ regs → d.x = c.x) ∧ (.y ∉ regs → d.y = c.y) ∧
      (.sp ∉ regs → d.sp = c.sp) := by
  refine ⟨fun h => ⟨h .a, h .x, h .y, h .sp⟩, fun ⟨ha, hx, hy, hs⟩ r => ?_⟩
  cases r with
  | a => exact ha
  | x => exact hx
  | y => exact hy
  | sp => exact hs

theorem RegsKept.refl (regs : List Reg) (c : Cpu) : RegsKept regs c c := fun _ _ => rfl

/-- The register file `d` differs from `c` at most in these flags, these registers and PC. -/
structure CpuWrites (flags : List Flag) (regs : List Reg) (c d : Cpu) : Prop where
  flags : FlagsKept flags c.p d.p
  regs  : RegsKept regs c d

section
variable {flags : List Flag} {regs : List Reg}

theorem CpuWrites.refl (flags : List Flag) (regs : List Reg) (c : Cpu) : CpuWrites flags regs c c :=
  ⟨FlagsKept.refl flags c.p, RegsKept.refl regs c⟩

theorem CpuWrites.withPc {c d : Cpu} (h : CpuWrites flags regs c d) (pc : Word) :
    CpuWrites flags regs c { d with pc := pc } :=
  ⟨h.flags, regsKept_iff.2 (regsKept_iff.1 h.regs)⟩

theorem CpuWrites.writeP {p : Byte} (c : Cpu) (h : FlagsKept flags c.p p) :
    CpuWrites flags [] c { c with p := p } :=
  ⟨h, regsKept_iff.2 (by simp)⟩

theorem CpuWrites.writeA {p : Byte} (c : Cpu) (v : Byte) (h : FlagsKept flags c.p p) :
    CpuWrites flags [.a] c { c with a := v, p := p } :=
  ⟨h, regsKept_iff.2 (by simp)⟩

theorem CpuWrites.writeX {p : Byte} (c : Cpu) (v : Byte) (h : FlagsKept flags c.p p) :
    CpuWrites flags [.x] c { c with x := v, p := p } :=
  ⟨h, regsKept_iff.2 (by simp)⟩

theorem CpuWrites.writeY {p : Byte} (c : Cpu) (v : Byte) (h : FlagsKept flags c.p p) :
    CpuWrites flags [.y] c { c with y := v, p := p } :=
  ⟨h, regsKept_iff.2 (by simp)⟩

theorem CpuWrites.writeSp {p : Byte} (c : Cpu) (v : Byte) (h : FlagsKept flags c.p p) :
    CpuWrites flags [.sp] c { c with sp := v, p := p } :=
  ⟨h, regsKept_iff.2 (by simp)⟩

/-! ## Instructions that complete -/

/-- What an instruction that goes on from `s` to `t` did: accesses, and a register file that differs from
the old one at most in these flags, these registers and PC. -/
structure Completed (flags : List Flag) (regs : List Reg) (s t : State) : Prop where
  cpu    : CpuWrites flags regs s.cpu t.cpu
  access : Accessed s { t with cpu := s.cpu, cycles := s.cycles }

/-- Accesses, then a new register file and the reported cycles (R98). -/
theorem Accessed.complete {s u : State} {c : Cpu} {n : Nat} (h : Accessed s u)
    (hc : CpuWrites flags regs s.cpu c) : Completed flags regs s { u with cpu := c, cycles := n } where
  cpu := hc
  access := by
    obtain ⟨⟨-, hpending, hfault, hpaused, hcart, htiming, -, hcfg⟩, hm⟩ := h
    exact ⟨⟨rfl, hpending, hfault, hpaused, hcart, htiming, rfl, hcfg⟩,
      fun hs => memOk_of_eq (hm hs) rfl rfl rfl rfl rfl⟩

theorem readClass_completed {src : Source} {op : Config → Byte → Cpu → Cpu} {s t : State}
    (h : readClass src op s = .next t)
    (hop : ∀ m, CpuWrites flags regs s.cpu (op s.cfg m s.cpu)) : Completed flags regs s t := by
  cases hr : sourceRead src s with
  | err f u => rw [readClass_err hr] at h; cases h
  | ok m u =>
    rw [readClass_ok hr] at h
    cases h
    have hu : Accessed s u := by simpa [hr] using sourceRead_accessed src s
    exact hu.complete ((hop m).withPc _)

theorem writeClass_completed {p : Place} {value : Cpu → Byte} {s t : State}
    (h : writeClass p value s = .next t) : Completed [] [] s t := by
  have ha := write8_accessed (placeEff p s).addr (value s.cpu) s
  cases hw : write8 (placeEff p s).addr (value s.cpu) s with
  | err f u => rw [writeClass_err hw] at h; cases h
  | ok _ u =>
    rw [writeClass_ok hw] at h
    cases h
    rw [hw] at ha
    exact ha.complete (ha.frame.cpu ▸ (CpuWrites.refl [] [] u.cpu).withPc _)

/-- The read of a read-modify-write instruction, then its write. -/
theorem modify_accessed {a : Word} {s t : State} {v : Byte} (hr : read8 a s = .ok v t) (r : Byte) :
    Accessed s (write8 a r t).after :=
  Accessed.trans (by simpa [hr] using read8_accessed a s) (write8_accessed a r t)

theorem modifyClass_completed {p : Place} {alu : Byte → Byte → Byte × Byte} {s t : State}
    (h : modifyClass p alu s = .next t) (halu : ∀ v, FlagsKept flags s.cpu.p (alu v s.cpu.p).2) :
    Completed flags [] s t := by
  cases hr : read8 (placeEff p s).addr s with
  | err f u => rw [modifyClass_read_err hr] at h; cases h
  | ok v u =>
    have ha := modify_accessed hr (alu v s.cpu.p).1
    cases hw : write8 (placeEff p s).addr (alu v s.cpu.p).1 u with
    | err f w => rw [modifyClass_write_err hr hw] at h; cases h
    | ok _ w =>
      rw [modifyClass_ok hr hw] at h
      cases h
      rw [hw] at ha
      have hc := (CpuWrites.writeP s.cpu (halu v)).withPc
      exact ha.complete (ha.frame.cpu ▸ hc _)

/-- An instruction that works on the registers, and an immediate, alone. -/
theorem retire_completed {s : State} {c : Cpu} (length cycles : Nat)
    (hc : CpuWrites flags regs s.cpu c) :
    Completed flags regs s (retire length cycles (setCpu c s)) :=
  (Accessed.refl s).complete (hc.withPc _)

/-- An instruction that only moves PC. -/
theorem setPc_completed (pc : Word) (n : Nat) (s : State) :
    Completed [] [] s (setCycles n (setPc pc s)) :=
  (Accessed.refl s).complete ((CpuWrites.refl [] [] s.cpu).withPc pc)

theorem finish_next {s t : State} {r : Res Unit} (h : finish s r = .next t) : r = .ok () t := by
  cases r with
  | ok _ u => cases h; rfl
  | err f u => cases h

/-- An instruction whose accesses are a sequence of their own goes on only when they complete. -/
theorem finish_andThen_eq_next {α : Type} {s t : State} {r : Res α} {k : α → State → State}
    (h : finish s (r.andThen fun v u => .ok () (k v u)) = .next t) : ∃ v u, r = .ok v u ∧ t = k v u := by
  obtain ⟨v, u, hr, hk⟩ := Res.andThen_eq_ok (finish_next h)
  cases hk
  exact ⟨v, u, hr, rfl⟩

end

/-! ## The stack instructions, and the jumps that use the stack or a pointer -/

theorem CpuWrites.allFlags {d : Cpu} {regs : List Reg} (c : Cpu) (h : RegsKept regs c d) :
    CpuWrites [.n, .v, .bit5, .b, .d, .i, .z, .c] regs c d :=
  ⟨fun f hf => absurd (by cases f <;> decide) hf, h⟩

/-- PHA and PHP: one push (R113, R114). -/
theorem push_completed {v : Byte} {s t : State}
    (h : finish s ((push v s).andThen fun _ u => .ok () (retire 1 3 u)) = .next t) :
    Completed [] [.sp] s t := by
  obtain ⟨_, u, hu, rfl⟩ := finish_andThen_eq_next h
  rw [push_eq] at hu
  cases hu
  exact (pushed_accessed s _ _).complete ((CpuWrites.writeSp s.cpu _ (.refl [] _)).withPc _)

theorem execPla_completed {s t : State} (h : execPla s = .next t) :
    Completed [.n, .z] [.a, .sp] s t := by
  obtain ⟨v, u, hu, rfl⟩ := finish_andThen_eq_next h
  rw [pull_eq] at hu
  cases hu
  exact (Accessed.refl s).complete ⟨setNZ_flagsKept _ _, regsKept_iff.2 (by simp)⟩

/-- PLP loads P from the pulled byte (R116). -/
theorem execPlp_eq {s t : State} (h : execPlp s = .next t) : t =
    retire 1 4 (setP (pulledStatus s.cfg (stackByte s (s.cpu.sp + 1#8)))
      (setSp (s.cpu.sp + 1#8) s)) := by
  obtain ⟨v, u, hu, rfl⟩ := finish_andThen_eq_next h
  rw [pull_eq] at hu
  cases hu
  rfl

theorem execPlp_completed {s t : State} (h : execPlp s = .next t) :
    Completed [.n, .v, .bit5, .b, .d, .i, .z, .c] [.sp] s t := by
  rw [execPlp_eq h]
  exact (Accessed.refl s).complete (.allFlags s.cpu (regsKept_iff.2 (by simp)))

theorem execJmpInd_completed {nn : Word} {s t : State} (h : execJmpInd nn s = .next t) :
    Completed [] [] s t := by
  obtain ⟨v, u, hu, rfl⟩ := finish_andThen_eq_next h
  have ha : Accessed s u := by simpa [hu] using readJumpPointer_accessed nn s
  exact ha.complete (ha.frame.cpu ▸ (CpuWrites.refl [] [] u.cpu).withPc v)

theorem execJsr_completed {nn : Word} {s t : State} (h : execJsr nn s = .next t) :
    Completed [] [.sp] s t := by
  obtain ⟨_, u, hu, rfl⟩ := finish_andThen_eq_next h
  rw [push16_eq] at hu
  cases hu
  exact (pushed_twice_accessed s _ _ _ _).complete
    ((CpuWrites.writeSp s.cpu _ (.refl [] _)).withPc nn)

theorem execRts_completed {s t : State} (h : execRts s = .next t) : Completed [] [.sp] s t := by
  obtain ⟨_, u, hu, rfl⟩ := finish_andThen_eq_next h
  rw [pull16_eq] at hu
  cases hu
  exact (Accessed.refl s).complete ((CpuWrites.writeSp s.cpu _ (.refl [] _)).withPc _)

/-- Taking an exception writes I, S and PC, and pushes (R151, R170). -/
theorem enterHandler_completed {ret vector : Word} {status : Byte} {s t : State}
    (hv : 0x8000 ≤ vector.toNat ∧ vector.toNat ≤ 0xFFFE)
    (h : enterHandler ret status vector s = .ok () t) : Completed [.i] [.sp] s t := by
  rw [enterHandler_eq _ _ hv.1 hv.2] at h
  cases h
  exact ((pushed_twice_accessed s _ _ _ _).trans (pushed_accessed _ _ _)).complete
    ((CpuWrites.writeSp s.cpu _ ((FlagsKept.refl _ _).setFlag (by decide) true)).withPc _)

theorem Completed.setCycles {flags : List Flag} {regs : List Reg} {s t : State}
    (h : Completed flags regs s t) (n : Nat) : Completed flags regs s (setCycles n t) :=
  ⟨h.cpu, h.access⟩

theorem execBrk_completed {s t : State} (h : execBrk s = .next t) : Completed [.i] [.sp] s t := by
  obtain ⟨_, u, hu, rfl⟩ := finish_andThen_eq_next h
  exact (enterHandler_completed (by decide) hu).setCycles 7

/-- RTI loads P from the first byte pulled (R152). -/
theorem execRti_eq {s t : State} (h : execRti s = .next t) :
    ∃ pc, t = setCycles 6 (setCpu { s.cpu with
      p := pulledStatus s.cfg (stackByte s (s.cpu.sp + 1#8))
      sp := s.cpu.sp + 1#8 + 1#8 + 1#8
      pc := pc } s) := by
  obtain ⟨_, u, hu, rfl⟩ := finish_andThen_eq_next h
  rw [returnFromInterrupt_eq] at hu
  cases hu
  exact ⟨_, rfl⟩

theorem execRti_completed {s t : State} (h : execRti s = .next t) :
    Completed [.n, .v, .bit5, .b, .d, .i, .z, .c] [.sp] s t := by
  obtain ⟨pc, rfl⟩ := execRti_eq h
  exact (Accessed.refl s).complete (.allFlags s.cpu (regsKept_iff.2 (by simp)))

/-! ## Every instruction -/

/-- An instruction that goes on writes the flags and registers of its rows in the tables of R27 and R15 to
R17, and beyond that only what accesses may change. -/
theorem exec_completed {i : Instr} {s t : State} (h : exec i s = .next t) :
    Completed (flagsWritten s.cfg i) (registersWritten i) s t := by
  cases i
  case ldaIzx | ldaZp | ldaAbs | ldaIzy | ldaZpx | ldaAby | ldaAbx =>
    exact readClass_completed (show ldaFrom _ s = _ from h) fun _ =>
      .writeA _ _ (setNZ_flagsKept _ _)
  case ldxZp | ldxAbs | ldxZpy | ldxAby =>
    exact readClass_completed (show ldxFrom _ s = _ from h) fun _ =>
      .writeX _ _ (setNZ_flagsKept _ _)
  case ldyZp | ldyAbs | ldyZpx | ldyAbx =>
    exact readClass_completed (show ldyFrom _ s = _ from h) fun _ =>
      .writeY _ _ (setNZ_flagsKept _ _)
  case andIzx | andZp | andAbs | andIzy | andZpx | andAby | andAbx =>
    exact readClass_completed (show andFrom _ s = _ from h) fun _ =>
      .writeA _ _ (setNZ_flagsKept _ _)
  case oraIzx | oraZp | oraAbs | oraIzy | oraZpx | oraAby | oraAbx =>
    exact readClass_completed (show oraFrom _ s = _ from h) fun _ =>
      .writeA _ _ (setNZ_flagsKept _ _)
  case eorIzx | eorZp | eorAbs | eorIzy | eorZpx | eorAby | eorAbx =>
    exact readClass_completed (show eorFrom _ s = _ from h) fun _ =>
      .writeA _ _ (setNZ_flagsKept _ _)
  case adcIzx | adcZp | adcAbs | adcIzy | adcZpx | adcAby | adcAbx =>
    exact readClass_completed (show adcFrom _ s = _ from h) fun _ =>
      .writeA _ _ (adcAlu_flagsKept _ _ _ _)
  case sbcIzx | sbcZp | sbcAbs | sbcIzy | sbcZpx | sbcAby | sbcAbx =>
    exact readClass_completed (show sbcFrom _ s = _ from h) fun _ =>
      .writeA _ _ (sbcAlu_flagsKept _ _ _ _)
  case cmpIzx | cmpZp | cmpAbs | cmpIzy | cmpZpx | cmpAby | cmpAbx =>
    exact readClass_completed (show cmpFrom _ s = _ from h) fun _ =>
      .writeP _ (cmpFlags_flagsKept _ _ _ _)
  case cpxZp | cpxAbs =>
    exact readClass_completed (show cpxFrom _ s = _ from h) fun _ =>
      .writeP _ (compareFlags_flagsKept _ _ _)
  case cpyZp | cpyAbs =>
    exact readClass_completed (show cpyFrom _ s = _ from h) fun _ =>
      .writeP _ (compareFlags_flagsKept _ _ _)
  case bitZp | bitAbs =>
    exact readClass_completed (show bitFrom _ s = _ from h) fun _ =>
      .writeP _ (bitFlags_flagsKept _ _ _ _)
  case staIzx | staZp | staAbs | staIzy | staZpx | staAby | staAbx =>
    exact writeClass_completed (show staTo _ s = _ from h)
  case stxZp | stxAbs | stxZpy =>
    exact writeClass_completed (show stxTo _ s = _ from h)
  case styZp | styAbs | styZpx =>
    exact writeClass_completed (show styTo _ s = _ from h)
  case incZp | incAbs | incZpx | incAbx =>
    exact modifyClass_completed (show incAt _ s = _ from h) fun _ =>
      setNZ_flagsKept _ _
  case decZp | decAbs | decZpx | decAbx =>
    exact modifyClass_completed (show decAt _ s = _ from h) fun _ =>
      setNZ_flagsKept _ _
  case aslZp | aslAbs | aslZpx | aslAbx =>
    exact modifyClass_completed (show aslAt _ s = _ from h) fun _ =>
      setNZ_setFlag_c_flagsKept _ _ _
  case lsrZp | lsrAbs | lsrZpx | lsrAbx =>
    exact modifyClass_completed (show lsrAt _ s = _ from h) fun _ =>
      setNZ_setFlag_c_flagsKept _ _ _
  case rolZp | rolAbs | rolZpx | rolAbx =>
    exact modifyClass_completed (show rolAt _ s = _ from h) fun _ =>
      setNZ_setFlag_c_flagsKept _ _ _
  case rorZp | rorAbs | rorZpx | rorAbx =>
    exact modifyClass_completed (show rorAt _ s = _ from h) fun _ =>
      setNZ_setFlag_c_flagsKept _ _ _
  case ldaImm | andImm | oraImm | eorImm | txa | tya =>
    cases h
    exact retire_completed _ _ (.writeA _ _ (setNZ_flagsKept _ _))
  case ldxImm | tax | tsx | inx | dex =>
    cases h
    exact retire_completed _ _ (.writeX _ _ (setNZ_flagsKept _ _))
  case ldyImm | tay | iny | dey =>
    cases h
    exact retire_completed _ _ (.writeY _ _ (setNZ_flagsKept _ _))
  case adcImm =>
    cases h
    exact retire_completed _ _ (.writeA _ _ (adcAlu_flagsKept _ _ _ _))
  case sbcImm =>
    cases h
    exact retire_completed _ _ (.writeA _ _ (sbcAlu_flagsKept _ _ _ _))
  case cmpImm =>
    cases h
    exact retire_completed _ _ (.writeP _ (cmpFlags_flagsKept _ _ _ _))
  case cpxImm | cpyImm =>
    cases h
    exact retire_completed _ _ (.writeP _ (compareFlags_flagsKept _ _ _))
  case aslAcc | lsrAcc | rolAcc | rorAcc =>
    cases h
    exact retire_completed _ _ (.writeA _ _ (setNZ_setFlag_c_flagsKept _ _ _))
  case txs =>
    cases h
    exact retire_completed _ _ (.writeSp _ _ (.refl [] _))
  case nop =>
    cases h
    exact retire_completed _ _ (.refl [] [] _)
  case clc | sec | cli | sei | cld | sed | clv =>
    cases h
    exact retire_completed _ _ (.writeP _ ((FlagsKept.refl _ _).setFlag (List.mem_singleton_self _) _))
  case bcc | bcs | beq | bmi | bne | bpl | bvc | bvs | jmpAbs =>
    cases h
    exact setPc_completed _ _ s
  case jmpInd => exact execJmpInd_completed h
  case jsr => exact execJsr_completed h
  case rts => exact execRts_completed h
  case brk => exact execBrk_completed h
  case rti => exact execRti_completed h
  case pha => exact push_completed (show execPha s = _ from h)
  case php => exact push_completed (show execPhp s = _ from h)
  case pla => exact execPla_completed h
  case plp => exact execPlp_completed h

/-- Settles O53: an instruction that goes on made accesses, which keep the frame, and wrote its rows of the
tables of flags and registers. -/
theorem instructionsWriteOnlyTheirFlagsAndRegisters :
    Obligations.InstructionsWriteOnlyTheirFlagsAndRegisters := by
  unfold Obligations.InstructionsWriteOnlyTheirFlagsAndRegisters
  intro i s t h
  obtain ⟨⟨hflags, hregs⟩, ⟨⟨-, hpending, hfault, hpaused, hcart, htiming, -, hcfg⟩, -⟩⟩ :=
    exec_completed h
  exact ⟨hflags, hregs, hpending, htiming, hcart, hcfg, hpaused, hfault⟩

end Sys2Proof.Machine
end

section
/-! PROOF. What a step of a running core is made of: accesses of the fetch, an instruction that goes on, PPU
dots, and interrupt service. What each of the four keeps, the step keeps (R97, R169, R170, R174). -/

namespace Sys2Proof.Machine

open Sys2Proof

/-! ## The fetch and interrupt service -/

theorem readBytes_accessed (n : Nat) (a : Word) (s : State) :
    Accessed s (readBytes n a s).after := by
  induction n generalizing a s with
  | zero => exact Accessed.refl s
  | succ n ih =>
    exact (read8_accessed a s).andThen fun _ t _ => (ih _ t).andThen fun _ u _ => Accessed.refl u

/-- The fetch changes nothing but what its reads do, whether or not it finds an instruction (R97, R163). -/
theorem fetch_accessed (s : State) : Accessed s (fetch s).after := by
  refine (read8_accessed s.cpu.pc s).andThen fun op t _ => ?_
  split
  · exact Accessed.refl t
  · refine (readBytes_accessed _ _ t).andThen fun operands u _ => ?_
    split <;> exact Accessed.refl u

/-- Entering the service writes I, S and PC, with a stack write or without one (R170). -/
theorem enterService_completed {k : Interrupt} {s t : State} (h : enterService k s = .ok () t) :
    Completed [.i] [.sp] s t := by
  unfold enterService at h
  split at h
  · unfold enterResetNmos at h
    dsimp only at h
    rw [read16_prg (vectorOf_prg .reset).1 (vectorOf_prg .reset).2] at h
    cases h
    exact (Accessed.refl s).complete
      ((CpuWrites.writeSp s.cpu _ ((FlagsKept.refl _ _).setFlag (by decide) true)).withPc _)
  · exact enterHandler_completed (vectorOf_prg k) h

/-! ## The step -/

/-- A step of a running core that goes on, taken apart (R97, R174). -/
theorem step_next {s t : State} (hrun : Running s) (h : step s = .next t) :
    ∃ i u v, fetch s = .ok i u ∧ exec i u = .next v ∧ afterInstruction v = .next t := by
  rw [step_running hrun] at h
  cases hf : fetch s with
  | err r u => rw [hf] at h; cases h
  | ok i u =>
    cases hi : exec i u with
    | next v => exact ⟨i, u, v, rfl, hi, by simpa only [hf, runFetched, hi] using h⟩
    | fault f => simp only [hf, runFetched, hi] at h; cases h
    | refused r => simp only [hf, runFetched, hi] at h; cases h

/-- What follows an instruction: the PPU update, then nothing, or a service with a PPU update of its own
(R169, R170, R174). -/
theorem afterInstruction_cases {s t : State} (h : afterInstruction s = .next t) :
    t = ppuUpdate s.cycles s ∨ ∃ k u n, enterService k (ppuUpdate s.cycles s) = .ok () u ∧
      t = ppuUpdate u.cfg.intCycles (setCycles n (setPending none u)) := by
  unfold afterInstruction poll at h
  split at h
  · cases h
    exact .inl rfl
  split at h
  · next k _ _ =>
    unfold serviceAndUpdate at h
    split at h
    · next u hu =>
      cases h
      obtain ⟨_, w, hw, hk⟩ := Res.andThen_eq_ok hu
      cases hk
      exact .inr ⟨k, w, _, hw, rfl⟩
    · cases h
  · cases h
    exact .inl rfl

/-- A property that PPU dots, the entry of a service, the interrupt slot and the reported cycles keep, what
follows an instruction keeps. -/
theorem afterInstruction_keeps {P : State → Prop} (hdots : ∀ n s, P s → P (ppuDots n s))
    (hserve : ∀ k s t, P s → enterService k s = .ok () t → P t)
    (hslot : ∀ n s, P s → P (setCycles n (setPending none s))) {s t : State} (hs : P s)
    (h : afterInstruction s = .next t) : P t := by
  obtain rfl | ⟨k, u, n, hu, rfl⟩ := afterInstruction_cases h
  · exact hdots _ s hs
  · exact hdots _ _ (hslot n u (hserve k _ u (hdots _ s hs) hu))

/-! ## What no step changes -/

/-- What only the host, or a fault, changes: the cartridge, the parameters, the pause flag and the fault
record (R29, R30, R36, R52). -/
structure HostFrame (s t : State) : Prop where
  cart   : t.cart = s.cart
  cfg    : t.cfg = s.cfg
  paused : t.paused = s.paused
  fault  : t.fault = s.fault

theorem HostFrame.trans {s t u : State} (h : HostFrame s t) (g : HostFrame t u) : HostFrame s u :=
  ⟨g.cart.trans h.cart, g.cfg.trans h.cfg, g.paused.trans h.paused, g.fault.trans h.fault⟩

theorem AccessFrame.hostFrame {s t : State} (h : AccessFrame s t) : HostFrame s t :=
  ⟨h.cart, h.cfg, h.paused, h.fault⟩

theorem Completed.hostFrame {flags : List Flag} {regs : List Reg} {s t : State}
    (h : Completed flags regs s t) : HostFrame s t :=
  let ⟨hcart, hcfg, hpaused, hfault⟩ := h.access.frame.hostFrame
  ⟨hcart, hcfg, hpaused, hfault⟩

theorem ppuDots_hostFrame (n : Nat) (s : State) : HostFrame s (ppuDots n s) := by
  rw [ppuDots_frame]
  exact ⟨rfl, rfl, rfl, rfl⟩

theorem afterInstruction_hostFrame {s t : State} (h : afterInstruction s = .next t) :
    HostFrame s t := by
  refine afterInstruction_keeps (P := HostFrame s) (fun n u hu => ?_) (fun k u v hu hv => ?_)
    (fun n u hu => ?_) ⟨rfl, rfl, rfl, rfl⟩ h
  · exact hu.trans (ppuDots_hostFrame n u)
  · exact hu.trans (enterService_completed hv).hostFrame
  · exact hu.trans ⟨rfl, rfl, rfl, rfl⟩

theorem step_hostFrame {s t : State} (hrun : Running s) (h : step s = .next t) : HostFrame s t := by
  obtain ⟨i, u, v, hf, he, ha⟩ := step_next hrun h
  have hu : Accessed s u := by simpa [hf] using fetch_accessed s
  exact (hu.frame.hostFrame.trans (exec_completed he).hostFrame).trans
    (afterInstruction_hostFrame ha)

/-- Settles O12: none of the parts of a step changes what only the host or a fault does. -/
theorem stepKeepsCartridgeAndParameters : Obligations.StepKeepsCartridgeAndParameters := by
  unfold Obligations.StepKeepsCartridgeAndParameters
  intro s t hrun h
  obtain ⟨hcart, hcfg, hpaused, hfault⟩ := step_hostFrame hrun h
  exact ⟨hcart, hcfg, hpaused.trans hrun.2, hfault.trans hrun.1⟩

end Sys2Proof.Machine
end

section
/-! PROOF. The machine invariant: the PPU counters through one dot, bits 4 and 5 of `P` through every write
of `P`, and the memories through every access, in a step that goes on and in the state a fault leaves. -/

namespace Sys2Proof.Machine

open Sys2Proof

/-! ## The PPU counters -/

/-- The frame counter reaches its threshold exactly at the last dot of the last line (R182). -/
theorem frame_threshold {L sl ld : Nat} (hsl : sl < 262) (hld : ld < L) :
    sl * L + ld + 1 = 262 * L ↔ sl = 261 ∧ ld + 1 = L := by
  constructor
  · intro h
    have hlast : 261 ≤ sl := by
      by_contra hlt
      have := Nat.mul_le_mul_right L (show sl + 1 ≤ 261 by omega)
      rw [Nat.succ_mul] at this
      omega
    obtain rfl : sl = 261 := by omega
    omega
  · rintro ⟨rfl, h⟩
    omega

theorem fetches_eq_true {sl dot : Nat} :
    fetches sl dot = true ↔ (20 ≤ sl ∧ sl ≤ 260) ∧ dot % 2 = 0 ∧ dot ≤ 340 := by
  simp [fetches, and_assoc]

/-- Inside a line the phase advances exactly at the dots that fetch (R182, R183). -/
theorem phaseAt_succ (sl ld : Nat) : phaseAt sl (ld + 1) =
    if fetches sl (ld + 1) then nextPhase (phaseAt sl ld) else phaseAt sl ld := by
  simp only [fetches_eq_true, phaseAt, nextPhase, Config.fetchPhases]
  split_ifs <;> omega

/-- A line ends in the phase it began with (R183). -/
theorem phaseAt_lineEnd {sl ld : Nat} (h : 340 ≤ ld) (sl' : Nat) :
    phaseAt sl ld = phaseAt sl' 0 := by
  simp only [phaseAt]
  split_ifs <;> omega

/-- A dot inside a line keeps the counters in range and in step (R182, R183). -/
theorem lineTiming_timingOk_inside {L : Nat} {t : PpuTiming} (h : TimingOk L t)
    (hin : t.lineDots + 1 ≠ L) :
    TimingOk L (lineTiming L { t with frameDots := t.frameDots + 1 }) := by
  obtain ⟨hline, hscan, hframe, hphase⟩ := h
  constructor
  · simp only [lineTiming_lineDots, hin, if_false]
    omega
  · simpa only [lineTiming_scanline, hin, if_false] using hscan
  · simp only [lineTiming_frameDots, lineTiming_scanline, lineTiming_lineDots, hin, if_false]
    omega
  · simp only [lineTiming_phase, lineTiming_scanline, lineTiming_lineDots, hin, if_false]
    rw [hphase, phaseAt_succ]

/-- The last dot of a line keeps the counters in range and in step (R182, R183). -/
theorem lineTiming_timingOk_lineEnd {L : Nat} {t : PpuTiming} (hL : 341 ≤ L) (h : TimingOk L t)
    (hend : t.lineDots + 1 = L) : TimingOk L (lineTiming L { t with
      frameDots := if t.scanline = 261 then 0 else t.frameDots + 1 }) := by
  obtain ⟨hline, hscan, hframe, hphase⟩ := h
  have hquiet : fetches t.scanline L = false := by
    rw [Bool.eq_false_iff, Ne, fetches_eq_true]
    omega
  constructor
  · simp only [lineTiming_lineDots, hend, if_true]
    omega
  · simp only [lineTiming_scanline, hend, if_true]
    omega
  · simp only [lineTiming_frameDots, lineTiming_scanline, lineTiming_lineDots, hend, if_true]
    split
    · simp [*]
    · rw [Nat.mod_eq_of_lt (by omega), Nat.succ_mul]
      omega
  · simp only [lineTiming_phase, lineTiming_scanline, lineTiming_lineDots, hend, hquiet, if_true,
      Bool.false_eq_true, if_false]
    rw [hphase]
    exact phaseAt_lineEnd (by omega) _

/-- One dot keeps the counters in range and in step (R182, R183). -/
theorem ppuDot_timingOk {s : State} (hL : 341 ≤ s.cfg.lineDots)
    (h : TimingOk s.cfg.lineDots s.timing) : TimingOk s.cfg.lineDots (ppuDot s).timing := by
  have hlast := frame_threshold h.scanline h.line
  rw [← h.frame] at hlast
  rw [ppuDot_timing]
  simp only [hlast]
  by_cases hend : s.timing.lineDots + 1 = s.cfg.lineDots
  · simpa only [hend, and_true] using lineTiming_timingOk_lineEnd hL h hend
  · simpa only [hend, and_false, if_false] using lineTiming_timingOk_inside h hend

/-! ## Bits 4 and 5 of `P` -/

/-- Writing other flags keeps bits 4 and 5 (R24). -/
theorem StatusOk.of_flagsKept {cfg : Config} {flags : List Flag} {p q : Byte} (hs : StatusOk cfg p)
    (hk : FlagsKept flags p q) (hb : .b ∉ flags) (h5 : .bit5 ∉ flags) : StatusOk cfg q := fun hm =>
  ⟨(hk .bit5 h5).trans (hs hm).1, (hk .b hb).trans (hs hm).2⟩

/-- A pulled status has bits 4 and 5 as the parameters say (R24, R116, R152). -/
theorem statusOk_pulledStatus (cfg : Config) (v : Byte) : StatusOk cfg (pulledStatus cfg v) := by
  intro hm
  simp [pulledStatus, hm, getFlag_eq_getLsbD]

/-- Only PLP and RTI write bits 4 and 5 (R24, R27). -/
theorem bits_not_written (cfg : Config) {i : Instr} (hplp : i ≠ .plp) (hrti : i ≠ .rti) :
    .b ∉ flagsWritten cfg i ∧ .bit5 ∉ flagsWritten cfg i := by
  cases i
  case plp => exact absurd rfl hplp
  case rti => exact absurd rfl hrti
  case adcIzx | adcZp | adcImm | adcAbs | adcIzy | adcZpx | adcAby | adcAbx
      | sbcIzx | sbcZp | sbcImm | sbcAbs | sbcIzy | sbcZpx | sbcAby | sbcAbx | bitZp | bitAbs =>
    by_cases hv : cfg.vFlagMode = .nmos <;> simp [flagsWritten, hv]
  all_goals simp [flagsWritten]

/-- An instruction that goes on keeps bits 4 and 5: PLP and RTI load them so, and no other writes them. -/
theorem exec_statusOk {i : Instr} {s t : State} (hs : StatusOk s.cfg s.cpu.p)
    (h : exec i s = .next t) : StatusOk s.cfg t.cpu.p := by
  by_cases hplp : i = .plp
  · subst hplp
    rw [execPlp_eq h]
    exact statusOk_pulledStatus _ _
  by_cases hrti : i = .rti
  · subst hrti
    obtain ⟨pc, rfl⟩ := execRti_eq h
    exact statusOk_pulledStatus _ _
  obtain ⟨hb, h5⟩ := bits_not_written s.cfg hplp hrti
  exact hs.of_flagsKept (exec_completed h).cpu.flags hb h5

/-! ## The invariant through a step that goes on -/

/-- The invariant speaks of the parameters, the memories, the PPU counters and `P` alone. -/
theorem Inv.of_eq {s t : State} (hs : Inv s) (hcfg : t.cfg = s.cfg) (hmem : MemOk s → MemOk t)
    (htiming : t.timing = s.timing) (hstatus : StatusOk s.cfg t.cpu.p) : Inv t where
  config := hcfg ▸ hs.config
  memory := hmem hs.memory
  timing := hcfg ▸ htiming ▸ hs.timing
  status := hcfg ▸ hstatus

theorem Accessed.inv {s t : State} (h : Accessed s t) (hs : Inv s) : Inv t :=
  hs.of_eq h.frame.cfg h.memory h.frame.timing (h.frame.cpu ▸ hs.status)

theorem Completed.inv {flags : List Flag} {regs : List Reg} {s t : State}
    (h : Completed flags regs s t) (hs : Inv s) (hstatus : StatusOk s.cfg t.cpu.p) : Inv t :=
  hs.of_eq h.access.frame.cfg
    (fun hm => memOk_of_eq (h.access.memory hm) rfl rfl rfl rfl rfl) h.access.frame.timing hstatus

theorem exec_inv {i : Instr} {s t : State} (hs : Inv s) (h : exec i s = .next t) : Inv t :=
  (exec_completed h).inv hs (exec_statusOk hs.status h)

theorem ppuDot_inv {s : State} (h : Inv s) : Inv (ppuDot s) := by
  have hcfg : (ppuDot s).cfg = s.cfg := by rw [ppuDot_frame]
  have hcpu : (ppuDot s).cpu = s.cpu := by rw [ppuDot_frame]
  exact ⟨hcfg ▸ h.config, ppuDot_memOk h.memory, hcfg ▸ ppuDot_timingOk h.config h.timing,
    hcfg ▸ hcpu ▸ h.status⟩

theorem ppuDots_inv (n : Nat) (s : State) (h : Inv s) : Inv (ppuDots n s) := by
  induction n generalizing s with
  | zero => exact h
  | succ n ih => exact ih _ (ppuDot_inv h)

theorem enterService_inv (k : Interrupt) (s t : State) (hs : Inv s)
    (h : enterService k s = .ok () t) : Inv t := by
  have hc := enterService_completed h
  exact hc.inv hs (hs.status.of_flagsKept hc.cpu.flags (by decide) (by decide))

theorem setCycles_inv {s : State} (h : Inv s) (n : Nat) : Inv (setCycles n s) :=
  h.of_eq rfl (fun hm => memOk_of_eq hm rfl rfl rfl rfl rfl) rfl h.status

theorem setPending_inv {s : State} (h : Inv s) (k : Option Interrupt) : Inv (setPending k s) :=
  h.of_eq rfl (fun hm => memOk_of_eq hm rfl rfl rfl rfl rfl) rfl h.status

theorem afterInstruction_inv {s t : State} (hs : Inv s) (h : afterInstruction s = .next t) : Inv t :=
  afterInstruction_keeps ppuDots_inv enterService_inv
    (fun n _ hu => setCycles_inv (setPending_inv hu none) n) hs h

/-! ## The state a fault leaves -/

/-- A fault leaves the registers of the start of the step, over the accesses before it (R164). -/
def FaultAfterAccesses (s : State) (f : Fault) : Prop := ∃ r u, f = faultOf r s u ∧ Accessed s u

theorem FaultAfterAccesses.trans {s t : State} {f : Fault} (h : Accessed s t)
    (hf : FaultAfterAccesses t f) : FaultAfterAccesses s f := by
  obtain ⟨r, u, rfl, hu⟩ := hf
  exact ⟨r, u, faultOf_congr h.frame.cpu r u, h.trans hu⟩

theorem faultState_faultOf (r : FaultRecord) (s u : State) :
    faultState (faultOf r s u) = faulted r s u := by
  cases r <;> rfl

theorem FaultAfterAccesses.inv {s : State} {f : Fault} (h : FaultAfterAccesses s f) (hs : Inv s) :
    Inv (faultState f) := by
  obtain ⟨r, u, rfl, hu⟩ := h
  rw [faultState_faultOf]
  exact hs.of_eq hu.frame.cfg (fun hm => memOk_of_eq (hu.memory hm) rfl rfl rfl rfl rfl)
    hu.frame.timing hs.status

theorem readClass_fault {src : Source} {op : Config → Byte → Cpu → Cpu} {s : State} {f : Fault}
    (h : readClass src op s = .fault f) : FaultAfterAccesses s f := by
  cases hr : sourceRead src s with
  | ok m u => rw [readClass_ok hr] at h; cases h
  | err r u =>
    rw [readClass_err hr] at h
    cases h
    exact ⟨r, u, rfl, by simpa [hr] using sourceRead_accessed src s⟩

theorem writeClass_fault {p : Place} {value : Cpu → Byte} {s : State} {f : Fault}
    (h : writeClass p value s = .fault f) : FaultAfterAccesses s f := by
  have ha := write8_accessed (placeEff p s).addr (value s.cpu) s
  cases hw : write8 (placeEff p s).addr (value s.cpu) s with
  | ok _ u => rw [writeClass_ok hw] at h; cases h
  | err r u =>
    rw [writeClass_err hw] at h
    cases h
    exact ⟨r, u, rfl, by simpa [hw] using ha⟩

theorem modifyClass_fault {p : Place} {alu : Byte → Byte → Byte × Byte} {s : State} {f : Fault}
    (h : modifyClass p alu s = .fault f) : FaultAfterAccesses s f := by
  cases hr : read8 (placeEff p s).addr s with
  | err r u =>
    rw [modifyClass_read_err hr] at h
    cases h
    exact ⟨r, u, rfl, by simpa [hr] using read8_accessed (placeEff p s).addr s⟩
  | ok v u =>
    have ha := modify_accessed hr (alu v s.cpu.p).1
    cases hw : write8 (placeEff p s).addr (alu v s.cpu.p).1 u with
    | ok _ w => rw [modifyClass_ok hr hw] at h; cases h
    | err r w =>
      rw [modifyClass_write_err hr hw] at h
      cases h
      exact ⟨r, w, rfl, by simpa [hw] using ha⟩

theorem execJmpInd_fault {nn : Word} {s : State} {f : Fault} (h : execJmpInd nn s = .fault f) :
    FaultAfterAccesses s f := by
  have ha := readJumpPointer_accessed nn s
  unfold execJmpInd at h
  cases hr : readJumpPointer nn s with
  | ok w u => rw [hr] at h; cases h
  | err r u =>
    rw [hr] at h
    cases h
    exact ⟨r, u, rfl, by simpa [hr] using ha⟩

/-- The fault of an instruction is that of one of its accesses (R162, R164). -/
theorem exec_fault {i : Instr} {s : State} {f : Fault} (h : exec i s = .fault f) :
    FaultAfterAccesses s f := by
  cases execShape i with
  | read p op hi => exact readClass_fault (hi s ▸ h)
  | write p value hi => exact writeClass_fault (hi s ▸ h)
  | modify p alu hi => exact modifyClass_fault (hi s ▸ h)
  | pointer nn hi => exact execJmpInd_fault (hi s ▸ h)
  | completes hi =>
    obtain ⟨t, ht⟩ := hi s
    rw [ht] at h
    cases h

/-- A step of a running core faults in its fetch or in its instruction (R161 to R164). -/
theorem step_fault {s : State} {f : Fault} (hrun : Running s) (h : step s = .fault f) :
    FaultAfterAccesses s f := by
  have ha := fetch_accessed s
  rw [step_running hrun] at h
  cases hf : fetch s with
  | err r u =>
    rw [hf] at h ha
    cases h
    exact ⟨r, u, rfl, ha⟩
  | ok i u =>
    rw [hf] at ha
    cases hi : exec i u with
    | next v =>
      obtain ⟨t, ht⟩ := afterInstruction_next v
      simp only [hf, runFetched, hi, ht] at h
      cases h
    | fault g =>
      simp only [hf, runFetched, hi] at h
      cases h
      exact FaultAfterAccesses.trans ha (exec_fault hi)
    | refused r =>
      simp only [hf, runFetched, hi] at h
      cases h

/-! ## The step -/

theorem step_running_inv {s t : State} (hrun : Running s) (hs : Inv s) (h : step s = .next t) :
    Inv t := by
  obtain ⟨i, u, v, hf, he, ha⟩ := step_next hrun h
  have hu : Accessed s u := by simpa [hf] using fetch_accessed s
  exact afterInstruction_inv (exec_inv (hu.inv hs) he) ha

/-- A core that does not run goes on, or reports its fault again, with the state as it is but for the
reported cycles (R164, R175). -/
theorem step_not_running {s : State} (h : ¬Running s) :
    step s = .next (setCycles 0 s) ∨ ∃ r, step s = .fault (raise r s) := by
  unfold step
  split
  · exact .inr ⟨_, rfl⟩
  · split
    · exact .inl rfl
    · exact absurd ⟨‹_›, by simpa using ‹¬s.paused = true›⟩ h

theorem faultState_raise (r : FaultRecord) (s : State) : faultState (raise r s) = s := by
  cases r <;> rfl

/-- Settles O16: the fetch, the instruction, the PPU dots and the service each keep the invariant, and so do
the accesses before a fault. -/
theorem stepKeepsInvariant : Obligations.StepKeepsInvariant := by
  unfold Obligations.StepKeepsInvariant
  intro s hs
  by_cases hrun : Running s
  · exact ⟨fun t h => step_running_inv hrun hs h, fun f h => (step_fault hrun h).inv hs⟩
  · obtain hp | ⟨r, hr⟩ := step_not_running hrun
    · refine ⟨fun t h => ?_, fun f h => ?_⟩
      · cases hp.symm.trans h
        exact setCycles_inv hs 0
      · cases hp.symm.trans h
    · refine ⟨fun t h => ?_, fun f h => ?_⟩
      · cases hr.symm.trans h
      · cases hr.symm.trans h
        rwa [faultState_raise]

end Sys2Proof.Machine
end

section
/-! PROOF. Reads and writes by the decode map (R45 to R54), the fetch of code without effect (R59, R71), the
RAM mirrors (R46) and the stack primitives (R57). -/

namespace Sys2Proof.Machine

open Sys2Proof

/-! ## The decode map -/

/-- A read of register cell `i`, then its observer (R53, R185). -/
theorem read8_port {a : Word} {i : Nat} (hi : i < 8) (ha : a.toNat = 0x2000 + i) (s : State) :
    read8 a s = .ok (Memory.read s.ppuReg i) (notifyRead i (Memory.read s.ppuReg i) s) := by
  rw [read8_ppuReg (by omega) (by omega), show a.toNat - 0x2000 = i by omega]

/-- A write of register cell `i`, then its observer (R54, R185). -/
theorem write8_port {a : Word} {i : Nat} (hi : i < 8) (ha : a.toNat = 0x2000 + i) (v : Byte)
    (s : State) : write8 a v s =
      .ok () (notifyWrite i v { s with ppuReg := Memory.write s.ppuReg (a.toNat - 0x2000) v }) := by
  have hidx : a.toNat - 0x2000 = i := by omega
  rw [write8_ppuReg (by omega) (by omega), hidx]
  rfl

/-- A register cell other than 0x2002 and 0x2007 has no read observer (R185). -/
theorem notifyRead_none {i : Nat} (h2 : i ≠ 2) (h7 : i ≠ 7) (v : Byte) (s : State) :
    notifyRead i v s = s := by
  unfold notifyRead
  split
  · exact absurd rfl h2
  · exact absurd rfl h7
  · rfl

theorem read8_ppuReg_plain {a : Word} (h : 0x2000 ≤ a.toNat) (h' : a.toNat < 0x2008)
    (h2 : a ≠ 0x2002#16) (h7 : a ≠ 0x2007#16) (s : State) :
    read8 a s = .ok (Memory.read s.ppuReg (a.toNat - 0x2000)) s := by
  rw [read8_ppuReg h h', notifyRead_none]
  · exact fun hi => h2 (BitVec.eq_of_toNat_eq (by simp only [BitVec.toNat_ofNat]; omega))
  · exact fun hi => h7 (BitVec.eq_of_toNat_eq (by simp only [BitVec.toNat_ofNat]; omega))

/-- Settles O19, from the value and the effect of a read in each region. -/
theorem readFollowsTheDecodeMap : Obligations.ReadFollowsTheDecodeMap := by
  unfold Obligations.ReadFollowsTheDecodeMap
  intro s a
  exact ⟨fun h => read8_ram h s, fun h h' h2 h7 => read8_ppuReg_plain h h' h2 h7 s,
    fun h => read8_port (i := 2) (by decide) (by rw [h]; rfl) s,
    fun h => read8_port (i := 7) (by decide) (by rw [h]; rfl) s,
    fun h h' => read8_io h h' s, fun h => read8_prg h s, fun h => read8_unmapped h s⟩

theorem write8_prg_fault {a : Word} (h : 0x8000 ≤ a.toNat) (v : Byte) {s : State}
    (hm : s.cfg.romWriteMode = .fault) : write8 a v s = .err (.addressOutOfRange a .write) s := by
  simp only [write8, regionOf_prg h, hm]

theorem write8_prg_ignore {a : Word} (h : 0x8000 ≤ a.toNat) (v : Byte) {s : State}
    (hm : s.cfg.romWriteMode = .ignore) : write8 a v s = .ok () s := by
  simp only [write8, regionOf_prg h, hm]

/-- Settles O20, from the effect of a write in each region and of each register's observer. -/
theorem writeFollowsTheDecodeMap : Obligations.WriteFollowsTheDecodeMap := by
  unfold Obligations.WriteFollowsTheDecodeMap
  intro s a v
  have port (i : Nat) (hi : i < 8) (ha : a = BitVec.ofNat 16 (0x2000 + i)) : write8 a v s =
      .ok () (notifyWrite i v { s with ppuReg := Memory.write s.ppuReg (a.toNat - 0x2000) v }) :=
    write8_port hi (by rw [ha, BitVec.toNat_ofNat]; omega) v s
  refine ⟨fun h => write8_ram h v s, port 0 (by decide), port 1 (by decide), ?_, port 3 (by decide),
    port 4 (by decide), port 6 (by decide), port 7 (by decide), fun h h' hd => ?_, fun hd => ?_,
    fun h => ?_, fun h => write8_unmapped h v s⟩
  · rintro (h | h)
    · exact port 2 (by decide) h
    · exact port 5 (by decide) h
  · rw [write8_io h h', if_neg hd]
  · subst hd
    rw [write8_io (by decide) (by decide), if_pos rfl]
  · cases hm : s.cfg.romWriteMode with
    | fault => exact write8_prg_fault h v hm
    | ignore => exact write8_prg_ignore h v hm

/-! ## Code in RAM and PRG -/

/-- The byte stored at a RAM or PRG address (R46, R51). -/
def codeByte (s : State) (a : Word) : Byte :=
  if a.toNat < 0x2000 then Memory.read s.ram (a.toNat % 0x0800)
  else Memory.read s.cart.prg ((a.toNat - 0x8000) % s.cart.banks.size)

theorem read8_codeByte {a : Word} (h : a.toNat < 0x2000 ∨ 0x8000 ≤ a.toNat) (s : State) :
    read8 a s = .ok (codeByte s a) s := by
  unfold codeByte
  split
  · exact read8_ram ‹_› s
  · exact read8_prg (h.resolve_left ‹_›) s

theorem readBytes_codeByte {n : Nat} {a : Word} (s : State) (h : ∀ k, k < n →
      (a + BitVec.ofNat 16 k).toNat < 0x2000 ∨ 0x8000 ≤ (a + BitVec.ofNat 16 k).toNat) :
    readBytes n a s =
      .ok ((List.range n).map fun k => codeByte s (a + BitVec.ofNat 16 k)) s := by
  induction n generalizing a with
  | zero => rfl
  | succ n ih =>
    have hfirst : a + BitVec.ofNat 16 0 = a := BitVec.add_zero a
    have hnext (k : Nat) : a + 1#16 + BitVec.ofNat 16 k = a + BitVec.ofNat 16 (k + 1) := by
      rw [BitVec.add_assoc, Nat.add_comm, BitVec.ofNat_add]
    have hread : read8 a s = .ok (codeByte s a) s := read8_codeByte (hfirst ▸ h 0 (by omega)) s
    have hrest := ih (a := a + 1#16) fun k hk => by simpa only [hnext] using h (k + 1) (by omega)
    simp only [readBytes, hread, hrest, Res.andThen_ok, List.range_succ_eq_map, List.map_cons,
      List.map_map, hfirst, hnext, Function.comp_def, Nat.succ_eq_add_one]

/-- Settles O6, by induction on the number of bytes: each read of RAM or PRG leaves the state it found. -/
theorem codeInRamOrPrgIsFetchedWithoutEffect : Obligations.CodeInRamOrPrgIsFetchedWithoutEffect := by
  unfold Obligations.CodeInRamOrPrgIsFetchedWithoutEffect
  intro s n a h
  exact readBytes_codeByte s h

/-! ## The RAM mirrors -/

/-- What a write under the twelve rules leaves in the four copies of RAM (R41, R46). -/
theorem read_mirroredWrite_ram {four : Memory} (h : Memory.wf four) {a b : Nat} (ha : a < 0x2000)
    (hb : b < 0x2000) (v : Byte) : Memory.read (mirroredWrite ramMirrorRules four a v) b =
      if b % 0x0800 = a % 0x0800 then v else Memory.read four b := by
  have hreach := ramMirrors_reach a b ha
  have hfold := Memory.read_foldl_write id v (ramMirrorRules.filterMap fun r => mirrorTarget r a)
    (Memory.write_wf h a v) b
  simp only [List.map_id, id_eq] at hfold
  rw [mirroredWrite, hfold]
  by_cases hab : b = a
  · subst hab
    simp [Memory.read_write_same h]
  · rw [Memory.read_write_other a b v hab]
    simp only [hab, false_or, hb, true_and] at hreach
    simp only [hreach]

/-- A read after a write of any cell. -/
theorem Memory.read_write {m : Memory} (h : Memory.wf m) (a b : Nat) (v : Byte) :
    Memory.read (Memory.write m a v) b = if a = b then v else Memory.read m b := by
  split
  · subst b
    exact Memory.read_write_same h a v
  · exact Memory.read_write_other a b v (Ne.symm ‹_›)

/-- Settles O21: a write reaches the same addresses of RAM in the four copies as in the one array. -/
theorem fourMirroredCopiesAreOneArray : Obligations.FourMirroredCopiesAreOneArray := by
  unfold Obligations.FourMirroredCopiesAreOneArray
  refine ⟨fun one four a v hone hfour ha hsame b hb => ?_, fun s a b v hram ha hb => ?_⟩
  · rw [read_mirroredWrite_ram hfour ha hb, Memory.read_write hone, hsame b hb]
    simp only [eq_comm]
  · refine ⟨_, write8_ram ha v s, ?_⟩
    rw [read8_ram hb, Memory.read_write hram]

/-! ## The stack -/

theorem joinBytes_eq_ofNat (hi lo : Byte) :
    joinBytes hi lo = BitVec.ofNat 16 (hi.toNat * 256 + lo.toNat) := by
  rw [← toNat_joinBytes, BitVec.ofNat_toNat, BitVec.setWidth_eq]

/-- Settles O22, from the closed forms of push and pull. -/
theorem stackPrimitives : Obligations.StackPrimitives := by
  unfold Obligations.StackPrimitives
  intro s v w
  have hdown : (s.cpu.sp - 1#8).toNat = (s.cpu.sp.toNat + 255) % 256 := by bv_omega
  have hup : (s.cpu.sp + 1#8).toNat = (s.cpu.sp.toNat + 1) % 256 := by bv_omega
  have hup2 : (s.cpu.sp + 2#8).toNat = (s.cpu.sp.toNat + 2) % 256 := by bv_omega
  have hminus : s.cpu.sp - 1#8 - 1#8 = s.cpu.sp - 2#8 := by bv_omega
  have hplus : s.cpu.sp + 1#8 + 1#8 = s.cpu.sp + 2#8 := by bv_omega
  refine ⟨push_eq v s, ?_, ?_, ?_⟩
  · rw [pull_eq, stackByte, hup]
    rfl
  · rw [push16_eq, pushed, hdown, hminus]
    rfl
  · rw [pull16_eq, hplus, joinBytes_eq_ofNat, stackByte, stackByte, hup, hup2]
    rfl

end Sys2Proof.Machine
end

section
/-! PROOF. The VRAM mirror set (R63 to R65): the cells a write reaches are those that share its key. -/

namespace Sys2Proof.Machine

open Sys2Proof

/-! ## The words of the mirror rules as numbers -/

theorem toNat_and_0x3FFF (a : Word) : (a &&& 0x3FFF#16).toNat = a.toNat % 0x4000 := by
  rw [BitVec.toNat_and]
  exact Nat.and_two_pow_sub_one_eq_mod a.toNat 14

theorem toNat_and_0x001F (a : Word) : (a &&& 0x001F#16).toNat = a.toNat % 32 := by
  rw [BitVec.toNat_and]
  exact Nat.and_two_pow_sub_one_eq_mod a.toNat 5

theorem and_0x0003_eq_zero {a : Word} : a &&& 0x0003#16 = 0x0000#16 ↔ a.toNat % 4 = 0 := by
  rw [← BitVec.toNat_inj, BitVec.toNat_and]
  exact (Nat.and_two_pow_sub_one_eq_mod a.toNat 2).congr_left

theorem toNat_or_0x4000 {c : Word} (h : c.toNat < 0x4000) :
    (c ||| 0x4000#16).toNat = c.toNat + 0x4000 := by
  rw [BitVec.toNat_or, Nat.or_comm, Nat.add_comm]
  exact (Nat.two_pow_add_eq_or_of_lt (i := 14) h 1).symm

/-- The copies of the palette lie 32 cells apart from 0x3F00 on (R63). -/
theorem toNat_paletteCell {k : Nat} {e : Word} (hk : k < 8) (he : e.toNat < 32) :
    (0x3F00#16 ||| BitVec.ofNat 16 (k * 32) ||| e).toNat = 0x3F00 + 32 * k + e.toNat := by
  have hrow : 0x3F00 ||| k * 32 = 2 ^ 5 * (0x1F8 + k) := by
    have hor : 0x3F00 + k * 32 = 0x3F00 ||| k * 32 :=
      Nat.two_pow_add_eq_or_of_lt (i := 8) (by omega) 0x3F
    omega
  have hcell := Nat.two_pow_add_eq_or_of_lt (i := 5) he (0x1F8 + k)
  simp only [BitVec.toNat_or, BitVec.toNat_ofNat, Nat.mod_eq_of_lt (show k * 32 < 2 ^ 16 by omega)]
  rw [show 0x3F00 % 2 ^ 16 = 0x3F00 from rfl, hrow, ← hcell]
  omega

/-! ## The mirror classes -/

/-- A palette entry shares its cell with the entry 16 apart if it is a multiple of 4 (R63 `E`). -/
theorem mem_paletteEntries {e f : Word} (he : e.toNat < 32) : f ∈ paletteEntries e ↔
    f.toNat = e.toNat ∨ (e.toNat % 4 = 0 ∧ f.toNat = (e.toNat + 16) % 32) := by
  have hxor : (e ^^^ 0x0010#16).toNat = (e.toNat + 16) % 32 := by
    have hsmall : ∀ n < 32, n ^^^ 16 = (n + 16) % 32 := by decide
    rw [BitVec.toNat_xor]
    exact hsmall e.toNat he
  unfold paletteEntries
  simp only [and_0x0003_eq_zero]
  split
  · next h4 =>
    simp only [List.mem_cons, List.not_mem_nil, or_false, ← BitVec.toNat_inj, hxor, h4, true_and]
  · next h4 =>
    simp only [List.mem_cons, List.not_mem_nil, or_false, ← BitVec.toNat_inj, h4, false_and]

/-- The class of an address of the 16 KiB image holds the addresses of the image with its key (R63). -/
theorem mem_vramClass {c d : Word} (hc : c.toNat < 0x4000) :
    d ∈ vramClass c ↔ d.toNat < 0x4000 ∧ vramKey d.toNat = vramKey c.toNat := by
  unfold vramClass
  split
  · have he := toNat_and_0x001F c
    simp only [List.mem_flatMap, List.mem_map, List.mem_range,
      mem_paletteEntries (show (c &&& 0x001F#16).toNat < 32 by omega), he]
    constructor
    · rintro ⟨k, hk, e, hke, rfl⟩
      rw [toNat_paletteCell hk (by omega)]
      simp only [vramKey]
      split_ifs <;> omega
    · rintro ⟨hd, hkey⟩
      have hf := toNat_and_0x001F d
      simp only [vramKey] at hkey
      refine ⟨(d.toNat - 0x3F00) / 32, by omega, d &&& 0x001F#16, ?_, BitVec.eq_of_toNat_eq ?_⟩
      · split_ifs at hkey <;> omega
      · rw [toNat_paletteCell (by omega) (by omega)]
        split_ifs at hkey <;> omega
  · rw [List.mem_singleton, ← BitVec.toNat_inj]
    simp only [vramKey]
    split_ifs <;> omega

theorem vramKey_mod (a : Nat) : vramKey (a % 0x4000) = vramKey a := by
  simp only [vramKey, Nat.mod_mod]

/-- The image and its copy at 0x4000 hold each class twice (R63). -/
theorem mem_vramClass_copies {a b : Word} :
    b ∈ ((vramClass (a &&& 0x3FFF#16)).flatMap fun c => [c, c ||| 0x4000#16]) ↔
      b.toNat < 0x8000 ∧ vramKey a.toNat = vramKey b.toNat := by
  have ha := toNat_and_0x3FFF a
  have hclass (c : Word) := mem_vramClass (d := c) (show (a &&& 0x3FFF#16).toNat < 0x4000 by omega)
  simp only [List.mem_flatMap, hclass, ha, vramKey_mod, List.mem_cons, List.not_mem_nil, or_false]
  constructor
  · rintro ⟨c, ⟨hc, hkey⟩, rfl | rfl⟩
    · exact ⟨by omega, hkey.symm⟩
    · rw [toNat_or_0x4000 hc]
      refine ⟨by omega, ?_⟩
      rw [← hkey, ← vramKey_mod (c.toNat + 0x4000), Nat.add_mod_right, vramKey_mod]
  · rintro ⟨hb, hkey⟩
    have hlow := toNat_and_0x3FFF b
    have hlt : (b &&& 0x3FFF#16).toNat < 0x4000 := by omega
    refine ⟨b &&& 0x3FFF#16, ⟨hlt, by rw [hlow, vramKey_mod, hkey]⟩, ?_⟩
    rw [← BitVec.toNat_inj, ← BitVec.toNat_inj, toNat_or_0x4000 hlt]
    omega

/-- A write at `a` reaches the cells of its mirror class, and no others (R63). -/
theorem mem_vramTargets {a b : Word} : (b = a ∨ b ∈ vramTargets a) ↔ SameVram a.toNat b.toNat := by
  rw [← BitVec.toNat_inj]
  unfold vramTargets SameVram
  split
  · simp only [List.not_mem_nil, or_false]
    omega
  · rw [List.mem_filter, mem_vramClass_copies, decide_eq_true_iff, Ne, ← BitVec.toNat_inj]
    omega

/-- What a VRAM write leaves at any address (R64, R65). -/
theorem vramRead_vramWrite {s : State} (h : Memory.wf s.vram) (a b : Word) (v : Byte) :
    vramRead b (vramWrite a v s) = if b = a ∨ b ∈ vramTargets a then v else vramRead b s := by
  have hfold : vramRead b (vramWrite a v s) = _ :=
    Memory.read_foldl_write BitVec.toNat v (vramTargets a) (Memory.write_wf h a.toNat v) b.toNat
  simp only [hfold, List.mem_map_of_injective fun _ _ => BitVec.eq_of_toNat_eq]
  by_cases hab : b = a
  · subst hab
    simp only [Memory.read_write_same h, ite_self, true_or, if_true]
  · rw [Memory.read_write_other _ _ v fun hn => hab (BitVec.eq_of_toNat_eq hn)]
    simp only [hab, false_or]
    rfl

/-- Settles O25: the addresses with the key of the written one are those the write reaches. -/
theorem vramWriteReachesItsMirrorClass : Obligations.VramWriteReachesItsMirrorClass := by
  unfold Obligations.VramWriteReachesItsMirrorClass
  intro s a b v h
  simp only [vramRead_vramWrite h, mem_vramTargets]

end Sys2Proof.Machine
end

section
/-! PROOF. The memory frames: what a read, a write, a copy and a push leave of the CPU's address space, of
VRAM and of OAM, and so what each row of the instruction tables leaves (R57, R59, R60, R91, R185). -/

namespace Sys2Proof.Machine

open Sys2Proof

/-! ## Cells of the CPU's address space -/

theorem regionOf_eq_ram {a : Word} {i : Nat} :
    regionOf a = .ram i ↔ a.toNat < 0x2000 ∧ a.toNat % 0x0800 = i := by
  unfold regionOf
  split_ifs <;> simp only [Region.ram.injEq, false_iff] <;> omega

theorem regionOf_eq_ppuReg {a : Word} {i : Nat} :
    regionOf a = .ppuReg i ↔ i < 8 ∧ a.toNat = 0x2000 + i := by
  unfold regionOf
  split_ifs <;> simp only [Region.ppuReg.injEq, false_iff] <;> omega

theorem peek_writeRam {a : Word} {i : Nat} {s : State} (h : regionOf a ≠ .ram i) (v : Byte) :
    peek a { s with ram := Memory.write s.ram i v } = peek a s := by
  cases ha : regionOf a with
  | ram j =>
    have hij : j ≠ i := by rintro rfl; exact h ha
    simp only [peek, ha, Memory.read_write_other i j v hij]
  | ppuReg | io | prg | unmapped => simp only [peek, ha]

theorem peek_writePpuReg {a : Word} {i : Nat} {s : State} (h : regionOf a ≠ .ppuReg i) (v : Byte) :
    peek a (writePpuReg i v s) = peek a s := by
  cases ha : regionOf a with
  | ppuReg j =>
    have hij : j ≠ i := by rintro rfl; exact h ha
    simp only [peek, writePpuReg, ha, Memory.read_write_other i j v hij]
  | ram | io | prg | unmapped => simp only [peek, writePpuReg, ha]

/-- A push is seen at its stack byte and at the mirrors of it alone (R46, R57). -/
theorem peek_pushed {a : Word} {s : State} {sp : Byte} (h : ¬SameCell a (stackAddr sp)) (v : Byte) :
    peek a { s with ram := pushed s.ram sp v } = peek a s := by
  refine peek_writeRam (fun hr => h (.inr ?_)) v
  obtain ⟨ha, hi⟩ := regionOf_eq_ram.1 hr
  have := sp.isLt
  have hstack := toNat_stackAddr sp
  omega

/-- The memories of the CPU's address space are those of `s`: RAM, the register cells and the cartridge. -/
structure CellsKept (s t : State) : Prop where
  ram    : t.ram = s.ram
  ppuReg : t.ppuReg = s.ppuReg
  cart   : t.cart = s.cart

theorem CellsKept.trans {s t u : State} (h : CellsKept s t) (g : CellsKept t u) : CellsKept s u :=
  ⟨g.ram.trans h.ram, g.ppuReg.trans h.ppuReg, g.cart.trans h.cart⟩

theorem CellsKept.peek {s t : State} (h : CellsKept s t) (a : Word) : peek a t = peek a s := by
  simp only [Machine.peek, h.ram, h.ppuReg, h.cart]

/-! ## Reads -/

/-- What a read that completes leaves (R53): only an I/O read and the observers of 0x2002 and 0x2007 change
anything. -/
theorem read8_ok_cases {a : Word} {v : Byte} {s t : State} (h : read8 a s = .ok v t) :
    t = s ∨ t = { s with ioSeq := s.ioSeq + 1 } ∨ (a = 0x2002#16 ∧ t = onRead2002 s) ∨
      (a = 0x2007#16 ∧ t = onRead2007 v s) := by
  cases ha : regionOf a with
  | ram i | prg i =>
    simp only [read8, readCell, ha, Res.andThen_ok] at h
    cases h
    exact .inl rfl
  | io =>
    simp only [read8, readCell, ha, Res.andThen_ok] at h
    cases h
    exact .inr (.inl rfl)
  | unmapped => simp only [read8_unmapped (regionOf_unmapped.1 ha), reduceCtorEq] at h
  | ppuReg i =>
    obtain ⟨hi, hai⟩ := regionOf_eq_ppuReg.1 ha
    rw [read8_port hi hai] at h
    cases h
    by_cases h2 : i = 2
    · subst h2
      exact .inr (.inr (.inl ⟨BitVec.eq_of_toNat_eq hai, rfl⟩))
    by_cases h7 : i = 7
    · subst h7
      exact .inr (.inr (.inr ⟨BitVec.eq_of_toNat_eq hai, rfl⟩))
    exact .inl (notifyRead_none h2 h7 _ s)

/-- What a read of `a` leaves alone: every CPU address but `a` itself where `a` has a read observer, VRAM but
for 0x2007, and OAM (R185). -/
structure ReadFrame (a : Word) (s t : State) : Prop where
  peek : ∀ b, (b = a → b ≠ 0x2002#16 ∧ b ≠ 0x2007#16) → peek b t = peek b s
  vram : a ≠ 0x2007#16 → t.vram = s.vram
  oam  : t.oam = s.oam

theorem onRead2007_peek {b : Word} (h : b ≠ 0x2007#16) (v : Byte) (s : State) :
    peek b (onRead2007 v s) = peek b s := by
  have hb : regionOf b ≠ .ppuReg 7 := fun hr => h (BitVec.eq_of_toNat_eq (regionOf_eq_ppuReg.1 hr).2)
  unfold onRead2007
  split
  · rfl
  · exact show peek b (writePpuReg 7 _ s) = peek b s from peek_writePpuReg hb _

theorem onRead2007_oam (v : Byte) (s : State) : (onRead2007 v s).oam = s.oam := by
  unfold onRead2007
  split <;> rfl

theorem onRead2002_peek {b : Word} (h : b ≠ 0x2002#16) (s : State) :
    peek b (onRead2002 s) = peek b s := by
  have hb : regionOf b ≠ .ppuReg 2 := fun hr => h (BitVec.eq_of_toNat_eq (regionOf_eq_ppuReg.1 hr).2)
  exact show peek b (writePpuReg 2 _ s) = peek b s from peek_writePpuReg hb _

theorem read8_readFrame {a : Word} {v : Byte} {s t : State} (h : read8 a s = .ok v t) :
    ReadFrame a s t := by
  obtain rfl | rfl | ⟨rfl, rfl⟩ | ⟨rfl, rfl⟩ := read8_ok_cases h
  · exact ⟨fun _ _ => rfl, fun _ => rfl, rfl⟩
  · exact ⟨fun _ _ => rfl, fun _ => rfl, rfl⟩
  · exact ⟨fun b hb => onRead2002_peek (fun h => (hb h).1 h) s, fun _ => rfl, rfl⟩
  · exact ⟨fun b hb => onRead2007_peek (fun h => (hb h).2 h) v s, fun h => absurd rfl h,
      onRead2007_oam v s⟩

/-! ## Writes -/

theorem notifyWrite_cellsKept (i : Nat) (v : Byte) (s : State) : CellsKept s (notifyWrite i v s) := by
  unfold notifyWrite
  split
  case h_5 =>
    unfold onWrite2006
    split <;> exact ⟨rfl, rfl, rfl⟩
  all_goals exact ⟨rfl, rfl, rfl⟩

/-- Only the data port writes VRAM (R185, R190). -/
theorem notifyWrite_vram {i : Nat} (h : i ≠ 7) (v : Byte) (s : State) :
    (notifyWrite i v s).vram = s.vram := by
  unfold notifyWrite
  split
  case h_5 =>
    unfold onWrite2006
    split <;> rfl
  case h_6 => exact absurd rfl h
  all_goals rfl

/-- Only the sprite data port writes OAM (R185, R193). -/
theorem notifyWrite_oam {i : Nat} (h : i ≠ 4) (v : Byte) (s : State) :
    (notifyWrite i v s).oam = s.oam := by
  unfold notifyWrite
  split
  case h_4 => exact absurd rfl h
  case h_5 =>
    unfold onWrite2006
    split <;> rfl
  all_goals rfl

theorem readCell_kept {a : Word} {v : Byte} {s t : State} (h : readCell a s = .ok v t) :
    CellsKept s t ∧ t.vram = s.vram := by
  unfold readCell at h
  split at h <;> cases h <;> exact ⟨⟨rfl, rfl, rfl⟩, rfl⟩

/-- The OAM DMA copy leaves the CPU's address space and VRAM as they were (R194). -/
theorem dmaCopy_kept {v : Byte} {n i : Nat} {s t : State} (h : dmaCopy v n i s = .ok () t) :
    CellsKept s t ∧ t.vram = s.vram := by
  induction n generalizing i s with
  | zero =>
    cases h
    exact ⟨⟨rfl, rfl, rfl⟩, rfl⟩
  | succ n ih =>
    obtain ⟨b, u, hb, h⟩ := Res.andThen_eq_ok h
    obtain ⟨hcells, hvram⟩ := readCell_kept hb
    obtain ⟨⟨hram, hreg, hcart⟩, hvram'⟩ := ih h
    exact ⟨hcells.trans ⟨hram, hreg, hcart⟩, hvram'.trans hvram⟩

/-- What a write at `a` leaves alone: every CPU address outside the cell of `a`, VRAM but for 0x2007, and OAM
but for 0x2004 and 0x4014 (R46, R185). -/
structure WriteFrame (a : Word) (s t : State) : Prop where
  peek : ∀ b, ¬SameCell b a → peek b t = peek b s
  vram : a ≠ 0x2007#16 → t.vram = s.vram
  oam  : a ≠ 0x2004#16 → a ≠ 0x4014#16 → t.oam = s.oam

theorem WriteFrame.trans {a : Word} {s t u : State} (h : WriteFrame a s t) (g : WriteFrame a t u) :
    WriteFrame a s u :=
  ⟨fun b hb => (g.peek b hb).trans (h.peek b hb), fun h7 => (g.vram h7).trans (h.vram h7),
    fun h4 hd => (g.oam h4 hd).trans (h.oam h4 hd)⟩

theorem ReadFrame.writeFrame {a : Word} {s t : State} (h : ReadFrame a s t) : WriteFrame a s t :=
  ⟨fun b hb => h.peek b fun hba => absurd (.inl hba) hb, h.vram, fun _ _ => h.oam⟩

theorem writeFrame_ram {a : Word} {i : Nat} (ha : regionOf a = .ram i) (v : Byte) (s : State) :
    WriteFrame a s { s with ram := Memory.write s.ram i v } := by
  refine ⟨fun b hb => peek_writeRam (fun hr => hb (.inr ?_)) v, fun _ => rfl, fun _ _ => rfl⟩
  obtain ⟨ha, hai⟩ := regionOf_eq_ram.1 ha
  obtain ⟨hb, hbi⟩ := regionOf_eq_ram.1 hr
  exact ⟨hb, ha, hbi.trans hai.symm⟩

theorem writeFrame_ppuReg {a : Word} {i : Nat} (ha : regionOf a = .ppuReg i) (v : Byte) (s : State) :
    WriteFrame a s (notifyWrite i v (writePpuReg i v s)) := by
  obtain ⟨-, hai⟩ := regionOf_eq_ppuReg.1 ha
  refine ⟨fun b hb => ?_, fun h7 => ?_, fun h4 _ => ?_⟩
  · rw [(notifyWrite_cellsKept i v _).peek b]
    refine peek_writePpuReg (fun hr => hb (.inl (BitVec.eq_of_toNat_eq ?_))) v
    rw [hai, (regionOf_eq_ppuReg.1 hr).2]
  · refine notifyWrite_vram ?_ v _
    rintro rfl
    exact h7 (BitVec.eq_of_toNat_eq hai)
  · refine notifyWrite_oam ?_ v _
    rintro rfl
    exact h4 (BitVec.eq_of_toNat_eq hai)

theorem write8_writeFrame {a : Word} {v : Byte} {s t : State} (h : write8 a v s = .ok () t) :
    WriteFrame a s t := by
  unfold write8 at h
  split at h
  · next i ha =>
    cases h
    exact writeFrame_ram ha v s
  · next i ha =>
    cases h
    exact writeFrame_ppuReg ha v s
  · split at h
    · next hd =>
      obtain ⟨hcells, hvram⟩ := dmaCopy_kept h
      exact ⟨fun b _ => hcells.peek b, fun _ => hvram, fun _ hd' => absurd hd hd'⟩
    · cases h
      exact ⟨fun _ _ => rfl, fun _ => rfl, fun _ _ => rfl⟩
  · split at h
    · cases h
    · cases h
      exact ⟨fun _ _ => rfl, fun _ => rfl, fun _ _ => rfl⟩
  · cases h

/-! ## The rows of the tables as access classes -/

/-- The rows of a read-class table share one meaning (R91). -/
theorem readClass_of_rows {forms : List ReadForm} {rule : Source → State → Result}
    {op : Config → Byte → Cpu → Cpu} (hrule : ∀ src s, rule src s = readClass src op s)
    (hforms : forms.map (fun f => exec f.instr) = forms.map (fun f => rule f.source)) :
    ∀ f ∈ forms, ∃ op, ∀ s, exec f.instr s = readClass f.source op s := fun f hf =>
  ⟨op, fun s => (congrFun (List.map_inj_left.1 hforms f hf) s).trans (hrule f.source s)⟩

theorem exec_readForms (n : Byte) (nn : Word) :
    ∀ f ∈ readForms n nn, ∃ op, ∀ s, exec f.instr s = readClass f.source op s := by
  simp only [readForms, List.forall_mem_append, and_assoc]
  exact ⟨readClass_of_rows (rule := ldaFrom) (fun _ _ => rfl) rfl,
    readClass_of_rows (rule := ldxFrom) (fun _ _ => rfl) rfl,
    readClass_of_rows (rule := ldyFrom) (fun _ _ => rfl) rfl,
    readClass_of_rows (rule := adcFrom) (fun _ _ => rfl) rfl,
    readClass_of_rows (rule := sbcFrom) (fun _ _ => rfl) rfl,
    readClass_of_rows (rule := andFrom) (fun _ _ => rfl) rfl,
    readClass_of_rows (rule := oraFrom) (fun _ _ => rfl) rfl,
    readClass_of_rows (rule := eorFrom) (fun _ _ => rfl) rfl,
    readClass_of_rows (rule := cmpFrom) (fun _ _ => rfl) rfl,
    readClass_of_rows (rule := cpxFrom) (fun _ _ => rfl) rfl,
    readClass_of_rows (rule := cpyFrom) (fun _ _ => rfl) rfl,
    readClass_of_rows (rule := bitFrom) (fun _ _ => rfl) rfl⟩

/-- The rows of a store table share one meaning (R91). -/
theorem writeClass_of_rows {forms : List PlaceForm} {rule : Place → State → Result}
    {value : Cpu → Byte} (hrule : ∀ p s, rule p s = writeClass p value s)
    (hforms : forms.map (fun f => exec f.instr) = forms.map (fun f => rule f.place)) :
    ∀ f ∈ forms, ∃ value, ∀ s, exec f.instr s = writeClass f.place value s := fun f hf =>
  ⟨value, fun s => (congrFun (List.map_inj_left.1 hforms f hf) s).trans (hrule f.place s)⟩

theorem exec_storeForms (n : Byte) (nn : Word) :
    ∀ f ∈ storeForms n nn, ∃ value, ∀ s, exec f.instr s = writeClass f.place value s := by
  simp only [storeForms, List.forall_mem_append, and_assoc]
  exact ⟨writeClass_of_rows (rule := staTo) (fun _ _ => rfl) rfl,
    writeClass_of_rows (rule := stxTo) (fun _ _ => rfl) rfl,
    writeClass_of_rows (rule := styTo) (fun _ _ => rfl) rfl⟩

/-- The rows of a read-modify-write table share one meaning (R91). -/
theorem modifyClass_of_rows {forms : List PlaceForm} {rule : Place → State → Result}
    {alu : Byte → Byte → Byte × Byte} (hrule : ∀ p s, rule p s = modifyClass p alu s)
    (hforms : forms.map (fun f => exec f.instr) = forms.map (fun f => rule f.place)) :
    ∀ f ∈ forms, ∃ alu, ∀ s, exec f.instr s = modifyClass f.place alu s := fun f hf =>
  ⟨alu, fun s => (congrFun (List.map_inj_left.1 hforms f hf) s).trans (hrule f.place s)⟩

theorem exec_modifyForms (n : Byte) (nn : Word) :
    ∀ f ∈ modifyForms n nn, ∃ alu, ∀ s, exec f.instr s = modifyClass f.place alu s := by
  simp only [modifyForms, List.forall_mem_append, and_assoc]
  exact ⟨modifyClass_of_rows (rule := incAt) (fun _ _ => rfl) rfl,
    modifyClass_of_rows (rule := decAt) (fun _ _ => rfl) rfl,
    modifyClass_of_rows (rule := aslAt) (fun _ _ => rfl) rfl,
    modifyClass_of_rows (rule := lsrAt) (fun _ _ => rfl) rfl,
    modifyClass_of_rows (rule := rolAt) (fun _ _ => rfl) rfl,
    modifyClass_of_rows (rule := rorAt) (fun _ _ => rfl) rfl⟩

/-! ## Instructions that store nothing -/

/-- An instruction that goes on differs from what its accesses left in the registers and the reported cycles
alone (R98). -/
def Retires (u t : State) : Prop := ∃ c k, t = setCycles k (setCpu c u)

theorem Retires.peek {u t : State} (h : Retires u t) (a : Word) : peek a t = peek a u := by
  obtain ⟨c, k, rfl⟩ := h
  rfl

theorem Retires.memories {u t : State} (h : Retires u t) :
    t.vram = u.vram ∧ t.oam = u.oam ∧ t.ppuReg = u.ppuReg := by
  obtain ⟨c, k, rfl⟩ := h
  exact ⟨rfl, rfl, rfl⟩

theorem ReadFrame.retires {a : Word} {s u t : State} (h : ReadFrame a s u) (ht : Retires u t) :
    ReadFrame a s t := by
  obtain ⟨c, k, rfl⟩ := ht
  exact ⟨h.peek, h.vram, h.oam⟩

theorem WriteFrame.retires {a : Word} {s u t : State} (h : WriteFrame a s u) (ht : Retires u t) :
    WriteFrame a s t := by
  obtain ⟨c, k, rfl⟩ := ht
  exact ⟨h.peek, h.vram, h.oam⟩

theorem quietInstrs_retire {i : Instr} {n : Byte} {nn : Word} {s t : State}
    (hi : i ∈ quietInstrs n nn) (h : exec i s = .next t) : Retires s t := by
  unfold quietInstrs at hi
  fin_cases hi
  all_goals
    cases h
    exact ⟨_, _, rfl⟩

theorem pullInstrs_retire {i : Instr} {s t : State} (hi : i ∈ pullInstrs)
    (h : exec i s = .next t) : Retires s t := by
  simp only [pullInstrs, List.mem_cons, List.not_mem_nil, or_false] at hi
  obtain rfl | rfl | rfl | rfl := hi
  · obtain ⟨v, u, hu, rfl⟩ := finish_andThen_eq_next (show execPla s = _ from h)
    rw [pull_eq] at hu
    cases hu
    exact ⟨_, _, rfl⟩
  · rw [execPlp_eq h]
    exact ⟨_, _, rfl⟩
  · obtain ⟨v, u, hu, rfl⟩ := finish_andThen_eq_next (show execRts s = _ from h)
    rw [pull16_eq] at hu
    cases hu
    exact ⟨_, _, rfl⟩
  · obtain ⟨pc, rfl⟩ := execRti_eq h
    exact ⟨_, _, rfl⟩

theorem readClass_next {src : Source} {op : Config → Byte → Cpu → Cpu} {s t : State}
    (h : readClass src op s = .next t) : ∃ v u, sourceRead src s = .ok v u ∧ Retires u t := by
  cases hr : sourceRead src s with
  | err r u => rw [readClass_err hr] at h; cases h
  | ok v u =>
    rw [readClass_ok hr] at h
    cases h
    exact ⟨v, u, rfl, _, _, rfl⟩

/-- A read-class row reads its memory operand once (R91). -/
theorem readForms_mem_frame {f : ReadForm} {n : Byte} {nn : Word} {p : Place} {s t : State}
    (hf : f ∈ readForms n nn) (hp : f.source = .mem p) (h : exec f.instr s = .next t) :
    ReadFrame (placeEff p s).addr s t := by
  obtain ⟨op, hop⟩ := exec_readForms n nn f hf
  rw [hop, hp] at h
  obtain ⟨v, u, hr, ht⟩ := readClass_next h
  exact (read8_readFrame hr).retires ht

/-- A read-class row with an immediate operand makes no access (R80). -/
theorem readForms_imm_retire {f : ReadForm} {n m : Byte} {nn : Word} {s t : State}
    (hf : f ∈ readForms n nn) (hm : f.source = .imm m) (h : exec f.instr s = .next t) :
    Retires s t := by
  obtain ⟨op, hop⟩ := exec_readForms n nn f hf
  rw [hop, hm] at h
  obtain ⟨v, u, hr, ht⟩ := readClass_next h
  cases hr
  exact ht

/-- JMP (ind) reads the two bytes of its pointer (R89). -/
theorem jmpInd_frames {nn : Word} {s t : State} (h : exec (.jmpInd nn) s = .next t) :
    ∃ u, ReadFrame nn s u ∧ ReadFrame (joinBytes (highByte nn) (lowByte nn + 1#8)) u t := by
  obtain ⟨_, w, hw, rfl⟩ := finish_andThen_eq_next (show execJmpInd nn s = _ from h)
  obtain ⟨lo, u, hlo, hk⟩ := Res.andThen_eq_ok hw
  obtain ⟨hi, x, hhi, hk⟩ := Res.andThen_eq_ok hk
  cases hk
  exact ⟨u, read8_readFrame hlo, (read8_readFrame hhi).retires ⟨_, _, rfl⟩⟩

/-- Settles O54, from the frame of a read and from the rows that make no access but to the stack. -/
theorem nonStoringInstructionsLeaveMemory : Obligations.NonStoringInstructionsLeaveMemory := by
  unfold Obligations.NonStoringInstructionsLeaveMemory
  refine fun s t n nn => ⟨fun i hi h => ?_, fun f hf h => ⟨fun p hp a ha => ?_, fun p hp h7 => ?_,
    fun m hm => ?_, ?_⟩, fun h => ?_⟩
  · have ht : Retires s t := hi.elim (quietInstrs_retire · h) (pullInstrs_retire · h)
    exact ⟨ht.peek, ht.memories⟩
  · exact (readForms_mem_frame hf hp h).peek a ha
  · exact (readForms_mem_frame hf hp h).vram h7
  · have ht := readForms_imm_retire hf hm h
    exact ⟨ht.peek, ht.memories.1⟩
  · cases hsrc : f.source with
    | imm m => exact (readForms_imm_retire hf hsrc h).memories.2.1
    | mem p => exact (readForms_mem_frame hf hsrc h).oam
  · obtain ⟨u, hlo, hhi⟩ := jmpInd_frames h
    refine ⟨fun a ha => ?_, fun h7 h7' => (hhi.vram h7').trans (hlo.vram h7), hhi.oam.trans hlo.oam⟩
    exact (hhi.peek a fun h => ha (.inr h)).trans (hlo.peek a fun h => ha (.inl h))

/-! ## Stores and read-modify-write -/

theorem writeClass_writeFrame {p : Place} {value : Cpu → Byte} {s t : State}
    (h : writeClass p value s = .next t) : WriteFrame (placeEff p s).addr s t := by
  cases hw : write8 (placeEff p s).addr (value s.cpu) s with
  | err r u => rw [writeClass_err hw] at h; cases h
  | ok _ u =>
    rw [writeClass_ok hw] at h
    cases h
    exact (write8_writeFrame hw).retires ⟨_, _, rfl⟩

theorem modifyClass_writeFrame {p : Place} {alu : Byte → Byte → Byte × Byte} {s t : State}
    (h : modifyClass p alu s = .next t) : WriteFrame (placeEff p s).addr s t := by
  cases hr : read8 (placeEff p s).addr s with
  | err r u => rw [modifyClass_read_err hr] at h; cases h
  | ok v u =>
    cases hw : write8 (placeEff p s).addr (alu v s.cpu.p).1 u with
    | err r w => rw [modifyClass_write_err hr hw] at h; cases h
    | ok _ w =>
      rw [modifyClass_ok hr hw] at h
      cases h
      exact ((read8_readFrame hr).writeFrame.trans (write8_writeFrame hw)).retires ⟨_, _, rfl⟩

/-- Settles O55, from the frames of the one write, and of the read before it, at the effective address. -/
theorem storesChangeOnlyTheirCell : Obligations.StoresChangeOnlyTheirCell := by
  unfold Obligations.StoresChangeOnlyTheirCell
  intro s t n nn f hf h
  have hframe : WriteFrame (placeEff f.place s).addr s t := by
    obtain hf | hf := List.mem_append.1 hf
    · obtain ⟨value, hv⟩ := exec_storeForms n nn f hf
      exact writeClass_writeFrame (hv s ▸ h)
    · obtain ⟨alu, ha⟩ := exec_modifyForms n nn f hf
      exact modifyClass_writeFrame (ha s ▸ h)
  exact ⟨hframe.peek, hframe.vram, hframe.oam⟩

/-! ## Pushes -/

/-- What pushes from `sp` down leave alone: every CPU address outside the cells of the `n` bytes pushed, VRAM,
OAM and the register cells (R57). -/
structure PushFrame (sp : Byte) (n : Nat) (s t : State) : Prop where
  peek   : ∀ a, (∀ k, k < n → ¬SameCell a (stackAddr (sp - BitVec.ofNat 8 k))) → peek a t = peek a s
  vram   : t.vram = s.vram
  oam    : t.oam = s.oam
  ppuReg : t.ppuReg = s.ppuReg

theorem PushFrame.refl (sp : Byte) (s : State) : PushFrame sp 0 s s :=
  ⟨fun _ _ => rfl, rfl, rfl, rfl⟩

/-- One push more. -/
theorem PushFrame.push {sp : Byte} {n : Nat} {s t : State} (h : PushFrame sp n s t) {sp' : Byte}
    (hsp : sp' = sp - BitVec.ofNat 8 n) (v : Byte) :
    PushFrame sp (n + 1) s { t with ram := pushed t.ram sp' v } := by
  subst hsp
  refine ⟨fun a ha => ?_, h.vram, h.oam, h.ppuReg⟩
  rw [peek_pushed (ha n (Nat.lt_succ_self n))]
  exact h.peek a fun k hk => ha k (Nat.lt_succ_of_lt hk)

theorem PushFrame.retires {sp : Byte} {n : Nat} {s u t : State} (h : PushFrame sp n s u)
    (ht : Retires u t) : PushFrame sp n s t := by
  obtain ⟨c, k, rfl⟩ := ht
  exact ⟨h.peek, h.vram, h.oam, h.ppuReg⟩

theorem pushInstrs_frame {q : Instr × Nat} {nn : Word} {s t : State} (hq : q ∈ pushInstrs nn)
    (h : exec q.1 s = .next t) : PushFrame s.cpu.sp q.2 s t := by
  have hone (v : Byte) := (PushFrame.refl s.cpu.sp s).push (BitVec.sub_zero _).symm v
  have htwo (v w : Byte) := (hone v).push rfl w
  simp only [pushInstrs, List.mem_cons, List.not_mem_nil, or_false] at hq
  obtain rfl | rfl | rfl | rfl := hq
  · obtain ⟨_, u, hu, rfl⟩ := finish_andThen_eq_next (show execPha s = _ from h)
    rw [push_eq] at hu
    cases hu
    exact (hone _).retires ⟨_, _, rfl⟩
  · obtain ⟨_, u, hu, rfl⟩ := finish_andThen_eq_next (show execPhp s = _ from h)
    rw [push_eq] at hu
    cases hu
    exact (hone _).retires ⟨_, _, rfl⟩
  · obtain ⟨_, u, hu, rfl⟩ := finish_andThen_eq_next (show execJsr nn s = _ from h)
    rw [push16_eq] at hu
    cases hu
    exact (htwo _ _).retires ⟨_, _, rfl⟩
  · obtain ⟨_, u, hu, rfl⟩ := finish_andThen_eq_next (show execBrk s = _ from h)
    rw [enterHandler_eq _ _ (by decide) (by decide)] at hu
    cases hu
    have hsp : s.cpu.sp - 1#8 - 1#8 = s.cpu.sp - BitVec.ofNat 8 2 := by bv_omega
    exact ((htwo _ _).push hsp _).retires ⟨_, _, rfl⟩

/-- Settles O56, from the frame of one push, a byte at a time. -/
theorem pushesChangeOnlyTheStack : Obligations.PushesChangeOnlyTheStack := by
  unfold Obligations.PushesChangeOnlyTheStack
  intro s t nn q hq h
  obtain ⟨hpeek, hvram, hoam, hreg⟩ := pushInstrs_frame hq h
  exact ⟨hpeek, hvram, hoam, hreg⟩

end Sys2Proof.Machine
end

section
/-! PROOF. Non-interference: under the literal data port no access, no instruction and no part of a step
depends on the contents of VRAM or OAM (R37, R190, R191, R193). -/

namespace Sys2Proof.Machine

open Sys2Proof

/-! ## Machines that differ in VRAM and OAM alone -/

/-- `s` with other contents in VRAM and OAM. -/
def withVideo (vram oam : Memory) (s : State) : State := { s with vram := vram, oam := oam }

/-- `s` and `t` are one machine, under the literal data port, but for the contents of VRAM and OAM. -/
structure SameButVideo (s t : State) : Prop where
  literal : s.cfg.ppuDataReadMode = .literal
  same    : t = withVideo t.vram t.oam s

theorem SameButVideo.of_literal {s : State} (h : s.cfg.ppuDataReadMode = .literal)
    (vram oam : Memory) : SameButVideo s (withVideo vram oam s) :=
  ⟨h, rfl⟩

section
variable {s t : State}

theorem SameButVideo.exists_eq (h : SameButVideo s t) : ∃ vram oam, t = withVideo vram oam s :=
  ⟨_, _, h.same⟩

theorem SameButVideo.cpu (h : SameButVideo s t) : t.cpu = s.cpu := by rw [h.same]; rfl
theorem SameButVideo.cfg (h : SameButVideo s t) : t.cfg = s.cfg := by rw [h.same]; rfl
theorem SameButVideo.pending (h : SameButVideo s t) : t.pending = s.pending := by rw [h.same]; rfl
theorem SameButVideo.fault (h : SameButVideo s t) : t.fault = s.fault := by rw [h.same]; rfl
theorem SameButVideo.paused (h : SameButVideo s t) : t.paused = s.paused := by rw [h.same]; rfl
theorem SameButVideo.cycles (h : SameButVideo s t) : t.cycles = s.cycles := by rw [h.same]; rfl

end

/-- An update that neither reads nor writes VRAM, OAM or the parameters keeps the two machines together. -/
theorem SameButVideo.map {s t : State} (h : SameButVideo s t) (f : State → State)
    (hf : ∀ vram oam, f (withVideo vram oam s) = withVideo vram oam (f s) := by intros; rfl)
    (hcfg : (f s).cfg = s.cfg := by rfl) :
    SameButVideo (f s) (f t) := by
  rw [h.same, hf]
  exact .of_literal (hcfg ▸ h.literal) _ _

/-! ## Accesses -/

/-- Two accesses with the same value, or the same fault, that leave machines which differ in VRAM and OAM
alone. -/
inductive Res.Alike {α : Type} : Res α → Res α → Prop where
  | ok {s t : State} (v : α) (h : SameButVideo s t) : Res.Alike (.ok v s) (.ok v t)
  | err {s t : State} (r : FaultRecord) (h : SameButVideo s t) : Res.Alike (.err r s) (.err r t)

theorem Res.Alike.andThen {α β : Type} {q r : Res α} {k l : α → State → Res β} (h : Res.Alike q r)
    (hk : ∀ v s t, SameButVideo s t → Res.Alike (k v s) (l v t)) :
    Res.Alike (q.andThen k) (r.andThen l) := by
  cases h with
  | ok v h => exact hk v _ _ h
  | err r h => exact .err r h

theorem readCell_alike {s t : State} (h : SameButVideo s t) (a : Word) :
    Res.Alike (readCell a s) (readCell a t) := by
  obtain ⟨vram, oam, rfl⟩ := h.exists_eq
  unfold readCell
  split
  · exact .ok _ h
  · exact .ok _ h
  · exact .ok _ (h.map fun s => { s with ioSeq := s.ioSeq + 1 })
  · exact .ok _ h
  · exact .err _ h

/-- Under the literal data port a read of 0x2007 stores the byte of its own register cell (R191). -/
theorem onRead2007_literal {s : State} (h : s.cfg.ppuDataReadMode = .literal) (v : Byte) :
    onRead2007 v s = onWrite2007 v s := by
  simp only [onRead2007, onWrite2007, h]

/-- The data port writes VRAM and reads nothing of it (R190). -/
theorem onWrite2007_sameButVideo {s t : State} (h : SameButVideo s t) (v : Byte) :
    SameButVideo (onWrite2007 v s) (onWrite2007 v t) := by
  rw [h.same]
  exact ⟨h.literal, rfl⟩

theorem notifyRead_sameButVideo {s t : State} (h : SameButVideo s t) (i : Nat) (v : Byte) :
    SameButVideo (notifyRead i v s) (notifyRead i v t) := by
  unfold notifyRead
  split
  · exact h.map _
  · rw [onRead2007_literal h.literal, onRead2007_literal (h.cfg ▸ h.literal)]
    exact onWrite2007_sameButVideo h v
  · exact h

theorem onWrite2006_sameButVideo {s t : State} (h : SameButVideo s t) (v : Byte) :
    SameButVideo (onWrite2006 v s) (onWrite2006 v t) := by
  have hf (vram oam : Memory) : onWrite2006 v (withVideo vram oam s) =
      withVideo vram oam (onWrite2006 v s) := by
    cases hl : s.cursors.latchNext <;> simp only [onWrite2006, withVideo, hl]
  exact h.map _ hf (by cases hl : s.cursors.latchNext <;> simp only [onWrite2006, hl])

theorem notifyWrite_sameButVideo {s t : State} (h : SameButVideo s t) (i : Nat) (v : Byte) :
    SameButVideo (notifyWrite i v s) (notifyWrite i v t) := by
  unfold notifyWrite
  split
  · exact h.map _
  · exact h.map _
  · exact h.map _
  · rw [h.same]
    exact ⟨h.literal, rfl⟩
  · exact onWrite2006_sameButVideo h v
  · exact onWrite2007_sameButVideo h v
  · exact h

theorem dmaCopy_alike {s t : State} (h : SameButVideo s t) (v : Byte) (n i : Nat) :
    Res.Alike (dmaCopy v n i s) (dmaCopy v n i t) := by
  induction n generalizing i s t with
  | zero => exact .ok () h
  | succ n ih =>
    refine (readCell_alike h _).andThen fun b s t h => ih ?_ _
    rw [h.same]
    exact ⟨h.literal, rfl⟩

theorem read8_alike {s t : State} (h : SameButVideo s t) (a : Word) :
    Res.Alike (read8 a s) (read8 a t) := by
  refine (readCell_alike h a).andThen fun v s t h => ?_
  split
  · exact .ok v (notifyRead_sameButVideo h _ v)
  · exact .ok v h

theorem write8_alike {s t : State} (h : SameButVideo s t) (a : Word) (v : Byte) :
    Res.Alike (write8 a v s) (write8 a v t) := by
  unfold write8
  split
  · exact .ok () (h.map fun s => { s with ram := Memory.write s.ram _ v })
  · exact .ok () (notifyWrite_sameButVideo (h.map (writePpuReg _ v)) _ v)
  · split
    · exact dmaCopy_alike h v 256 0
    · exact .ok () h
  · rw [h.cfg]
    split
    · exact .err _ h
    · exact .ok () h
  · exact .err _ h

theorem read16_alike {s t : State} (h : SameButVideo s t) (a : Word) :
    Res.Alike (read16 a s) (read16 a t) :=
  (read8_alike h a).andThen fun _ _ _ h => (read8_alike h _).andThen fun _ _ _ h => .ok _ h

theorem push_alike {s t : State} (h : SameButVideo s t) (v : Byte) :
    Res.Alike (push v s) (push v t) := by
  obtain ⟨vram, oam, rfl⟩ := h.exists_eq
  exact (write8_alike h _ v).andThen fun _ s t h =>
    .ok () (h.map fun s => setSp (s.cpu.sp - 1#8) s)

theorem pull_alike {s t : State} (h : SameButVideo s t) : Res.Alike (pull s) (pull t) := by
  obtain ⟨vram, oam, rfl⟩ := h.exists_eq
  exact read8_alike (h.map fun s => setSp (s.cpu.sp + 1#8) s) _

theorem push16_alike {s t : State} (h : SameButVideo s t) (w : Word) :
    Res.Alike (push16 w s) (push16 w t) :=
  (push_alike h _).andThen fun _ _ _ h => push_alike h _

theorem pull16_alike {s t : State} (h : SameButVideo s t) : Res.Alike (pull16 s) (pull16 t) :=
  (pull_alike h).andThen fun _ _ _ h => (pull_alike h).andThen fun _ _ _ h => .ok _ h

theorem enterHandler_alike {s t : State} (h : SameButVideo s t) (ret : Word) (status : Byte)
    (vector : Word) : Res.Alike (enterHandler ret status vector s) (enterHandler ret status vector t) :=
  (push16_alike h ret).andThen fun _ _ _ h => (push_alike h status).andThen fun _ _ _ h =>
    (read16_alike (h.map (fun s => setP (setFlag .i true s.cpu.p) s))
      vector).andThen fun pc _ _ h => .ok () (h.map (setPc pc))

theorem returnFromInterrupt_alike {s t : State} (h : SameButVideo s t) :
    Res.Alike (returnFromInterrupt s) (returnFromInterrupt t) :=
  (pull_alike h).andThen fun v _ _ h =>
    (pull16_alike (h.map (fun s => setP (pulledStatus s.cfg v) s))).andThen
      fun pc _ _ h => .ok () (h.map (setPc pc))

theorem readJumpPointer_alike {s t : State} (h : SameButVideo s t) (nn : Word) :
    Res.Alike (readJumpPointer nn s) (readJumpPointer nn t) :=
  (read8_alike h nn).andThen fun _ _ _ h => (read8_alike h _).andThen fun _ _ _ h => .ok _ h

theorem readBytes_alike {s t : State} (h : SameButVideo s t) (n : Nat) (a : Word) :
    Res.Alike (readBytes n a s) (readBytes n a t) := by
  induction n generalizing a s t with
  | zero => exact .ok [] h
  | succ n ih =>
    exact (read8_alike h a).andThen fun _ _ _ h => (ih h _).andThen fun _ _ _ h => .ok _ h

theorem fetch_alike {s t : State} (h : SameButVideo s t) : Res.Alike (fetch s) (fetch t) := by
  unfold fetch
  rw [h.cpu, h.cfg]
  refine (read8_alike h _).andThen fun op s t h => ?_
  split
  · exact .err _ h
  · refine (readBytes_alike h _ _).andThen fun bs s t h => ?_
    split
    · exact .ok _ h
    · exact .err _ h

/-! ## Instructions -/

/-- Two outcomes that go on, or stop with the same fault record, from machines which differ in VRAM and OAM
alone. -/
inductive ResultsAlike : Result → Result → Prop where
  | next {s t : State} (h : SameButVideo s t) : ResultsAlike (.next s) (.next t)
  | fault {f g : Fault} (hr : faultRecord g = faultRecord f)
      (h : SameButVideo (faultState f) (faultState g)) : ResultsAlike (.fault f) (.fault g)

/-- The fault of an access that both machines make ends both with the same record (R164). -/
theorem faultOf_alike {s t u v : State} (h : SameButVideo s t) (g : SameButVideo u v) (r : FaultRecord) :
    ResultsAlike (.fault (faultOf r s u)) (.fault (faultOf r t v)) := by
  refine .fault (by simp only [faultRecord_faultOf]) ?_
  rw [faultOf_congr h.cpu, faultState_faultOf, faultState_faultOf]
  exact g.map _

theorem finish_alike {s t : State} (h : SameButVideo s t) {q r : Res Unit} (hr : Res.Alike q r) :
    ResultsAlike (finish s q) (finish t r) := by
  cases hr with
  | ok v g => exact .next g
  | err r g => exact faultOf_alike h g r

theorem SameButVideo.placeEff {s t : State} (h : SameButVideo s t) (p : Place) :
    placeEff p t = placeEff p s := by
  rw [h.same]
  cases p <;> rfl

theorem readSource_alike {s t : State} (h : SameButVideo s t) (src : Source) :
    Res.Alike (readSource src s) (readSource src t) := by
  cases src with
  | imm n => exact .ok _ h
  | mem p =>
    simp only [readSource, effAddr_eq, Res.andThen_ok, h.placeEff]
    exact (read8_alike h _).andThen fun _ _ _ h => .ok _ h

theorem readClass_alike {s t : State} (h : SameButVideo s t) (src : Source)
    (op : Config → Byte → Cpu → Cpu) : ResultsAlike (readClass src op s) (readClass src op t) :=
  finish_alike h <| (readSource_alike h src).andThen fun m _ _ h => .ok () <| h.map
    (fun s => retire (sourceLength src) (readCost src + crossPenalty s.cfg m.crossed)
      (setCpu (op s.cfg m.value s.cpu) s))

theorem writeClass_alike {s t : State} (h : SameButVideo s t) (p : Place) (value : Cpu → Byte) :
    ResultsAlike (writeClass p value s) (writeClass p value t) := by
  refine finish_alike h ?_
  simp only [effAddr_eq, Res.andThen_ok, h.placeEff, h.cpu]
  exact (write8_alike h _ _).andThen fun _ _ _ h => .ok () <| h.map
    (fun s => retire (placeLength p) (storeCost p + dmaPenalty s.cfg _) s)

theorem modifyClass_alike {s t : State} (h : SameButVideo s t) (p : Place)
    (alu : Byte → Byte → Byte × Byte) : ResultsAlike (modifyClass p alu s) (modifyClass p alu t) := by
  refine finish_alike h ?_
  simp only [effAddr_eq, Res.andThen_ok, h.placeEff]
  refine (read8_alike h _).andThen fun v s t h => ?_
  rw [h.cpu]
  exact (write8_alike h _ _).andThen fun _ _ _ h => .ok () <| h.map
    (fun u => retire (placeLength p) (rmwCost p + dmaPenalty u.cfg _) (setP (alu v s.cpu.p).2 u))

/-- One access, or a sequence of its own, and then an update of the state (R98). -/
theorem finish_map_alike {α : Type} {s t : State} {q r : Res α} {k : α → State → State}
    (h : SameButVideo s t) (hr : Res.Alike q r)
    (hk : ∀ v u vram oam, k v (withVideo vram oam u) = withVideo vram oam (k v u) := by intros; rfl)
    (hcfg : ∀ v u, (k v u).cfg = u.cfg := by intros; rfl) :
    ResultsAlike (finish s (q.andThen fun v u => .ok () (k v u)))
      (finish t (r.andThen fun v u => .ok () (k v u))) :=
  finish_alike h (hr.andThen fun v u _ h => .ok () (h.map (k v) (hk v u) (hcfg v u)))

/-- No instruction depends on VRAM or OAM, whether it goes on or faults. -/
theorem exec_alike {s t : State} (h : SameButVideo s t) (i : Instr) :
    ResultsAlike (exec i s) (exec i t) := by
  cases i
  case ldaIzx | ldaZp | ldaAbs | ldaIzy | ldaZpx | ldaAby | ldaAbx =>
    exact show ResultsAlike (ldaFrom _ s) (ldaFrom _ t) from readClass_alike h _ _
  case ldxZp | ldxAbs | ldxZpy | ldxAby =>
    exact show ResultsAlike (ldxFrom _ s) (ldxFrom _ t) from readClass_alike h _ _
  case ldyZp | ldyAbs | ldyZpx | ldyAbx =>
    exact show ResultsAlike (ldyFrom _ s) (ldyFrom _ t) from readClass_alike h _ _
  case adcIzx | adcZp | adcAbs | adcIzy | adcZpx | adcAby | adcAbx =>
    exact show ResultsAlike (adcFrom _ s) (adcFrom _ t) from readClass_alike h _ _
  case sbcIzx | sbcZp | sbcAbs | sbcIzy | sbcZpx | sbcAby | sbcAbx =>
    exact show ResultsAlike (sbcFrom _ s) (sbcFrom _ t) from readClass_alike h _ _
  case andIzx | andZp | andAbs | andIzy | andZpx | andAby | andAbx =>
    exact show ResultsAlike (andFrom _ s) (andFrom _ t) from readClass_alike h _ _
  case oraIzx | oraZp | oraAbs | oraIzy | oraZpx | oraAby | oraAbx =>
    exact show ResultsAlike (oraFrom _ s) (oraFrom _ t) from readClass_alike h _ _
  case eorIzx | eorZp | eorAbs | eorIzy | eorZpx | eorAby | eorAbx =>
    exact show ResultsAlike (eorFrom _ s) (eorFrom _ t) from readClass_alike h _ _
  case cmpIzx | cmpZp | cmpAbs | cmpIzy | cmpZpx | cmpAby | cmpAbx =>
    exact show ResultsAlike (cmpFrom _ s) (cmpFrom _ t) from readClass_alike h _ _
  case cpxZp | cpxAbs =>
    exact show ResultsAlike (cpxFrom _ s) (cpxFrom _ t) from readClass_alike h _ _
  case cpyZp | cpyAbs =>
    exact show ResultsAlike (cpyFrom _ s) (cpyFrom _ t) from readClass_alike h _ _
  case bitZp | bitAbs =>
    exact show ResultsAlike (bitFrom _ s) (bitFrom _ t) from readClass_alike h _ _
  case staIzx | staZp | staAbs | staIzy | staZpx | staAby | staAbx =>
    exact show ResultsAlike (staTo _ s) (staTo _ t) from writeClass_alike h _ _
  case stxZp | stxAbs | stxZpy =>
    exact show ResultsAlike (stxTo _ s) (stxTo _ t) from writeClass_alike h _ _
  case styZp | styAbs | styZpx =>
    exact show ResultsAlike (styTo _ s) (styTo _ t) from writeClass_alike h _ _
  case incZp | incAbs | incZpx | incAbx =>
    exact show ResultsAlike (incAt _ s) (incAt _ t) from modifyClass_alike h _ _
  case decZp | decAbs | decZpx | decAbx =>
    exact show ResultsAlike (decAt _ s) (decAt _ t) from modifyClass_alike h _ _
  case aslZp | aslAbs | aslZpx | aslAbx =>
    exact show ResultsAlike (aslAt _ s) (aslAt _ t) from modifyClass_alike h _ _
  case lsrZp | lsrAbs | lsrZpx | lsrAbx =>
    exact show ResultsAlike (lsrAt _ s) (lsrAt _ t) from modifyClass_alike h _ _
  case rolZp | rolAbs | rolZpx | rolAbx =>
    exact show ResultsAlike (rolAt _ s) (rolAt _ t) from modifyClass_alike h _ _
  case rorZp | rorAbs | rorZpx | rorAbx =>
    exact show ResultsAlike (rorAt _ s) (rorAt _ t) from modifyClass_alike h _ _
  case ldaImm | ldxImm | ldyImm | adcImm | sbcImm | andImm | oraImm | eorImm | cmpImm | cpxImm | cpyImm
      | tax | tay | txa | tya | tsx | txs | inx | iny | dex | dey | aslAcc | lsrAcc | rolAcc | rorAcc
      | bcc | bcs | beq | bmi | bne | bpl | bvc | bvs | jmpAbs | nop
      | clc | sec | cli | sei | cld | sed | clv =>
    rw [h.same]
    exact .next ⟨h.literal, rfl⟩
  case jmpInd nn => exact finish_map_alike h (readJumpPointer_alike h nn)
  case pha | php =>
    obtain ⟨vram, oam, rfl⟩ := h.exists_eq
    exact finish_map_alike h (push_alike h _)
  case pla | plp => exact finish_map_alike h (pull_alike h)
  case jsr nn =>
    obtain ⟨vram, oam, rfl⟩ := h.exists_eq
    exact finish_map_alike h (push16_alike h _)
  case rts => exact finish_map_alike h (pull16_alike h)
  case brk =>
    obtain ⟨vram, oam, rfl⟩ := h.exists_eq
    exact finish_map_alike h (enterHandler_alike h _ _ _)
  case rti => exact finish_map_alike h (returnFromInterrupt_alike h)

/-! ## The step -/

theorem ppuDot_withVideo (vram oam : Memory) (s : State) :
    ppuDot (withVideo vram oam s) = withVideo vram oam (ppuDot s) := by
  rw [ppuDot_eq, ppuDot_eq s, apply_ite (withVideo vram oam)]
  simp only [raiseVblank_eq, withVideo]

theorem ppuDots_sameButVideo {s t : State} (h : SameButVideo s t) (n : Nat) :
    SameButVideo (ppuDots n s) (ppuDots n t) := by
  induction n generalizing s t with
  | zero => exact h
  | succ n ih => exact ih (h.map ppuDot (fun _ _ => ppuDot_withVideo _ _ s) (by rw [ppuDot_frame]))

theorem enterResetNmos_alike {s t : State} (h : SameButVideo s t) :
    Res.Alike (enterResetNmos s) (enterResetNmos t) := by
  obtain ⟨vram, oam, rfl⟩ := h.exists_eq
  have hset := h.map fun s => setP (setFlag .i true s.cpu.p) (setSp (s.cpu.sp - 3#8) s)
  exact (read16_alike hset (vectorOf .reset)).andThen fun pc _ _ h => .ok () (h.map (setPc pc))

theorem enterService_alike {s t : State} (h : SameButVideo s t) (k : Interrupt) :
    Res.Alike (enterService k s) (enterService k t) := by
  unfold enterService
  rw [h.cfg, h.cpu]
  split
  · exact enterResetNmos_alike h
  · exact enterHandler_alike h _ _ _

theorem service_alike {s t : State} (h : SameButVideo s t) (k : Interrupt) :
    Res.Alike (service k s) (service k t) :=
  (enterService_alike h k).andThen fun _ _ _ h =>
    .ok () (h.map (setPending none))

theorem serviceAndUpdate_alike {s t : State} (h : SameButVideo s t) (k : Interrupt) :
    ResultsAlike (serviceAndUpdate k s) (serviceAndUpdate k t) := by
  have hs := service_alike h k
  unfold serviceAndUpdate
  rw [h.cycles]
  generalize service k s = q at hs ⊢
  generalize service k t = r at hs ⊢
  cases hs with
  | ok _ g =>
    dsimp only
    rw [g.cfg]
    exact .next (ppuDots_sameButVideo (g.map (setCycles (s.cycles + _))) _)
  | err r g => exact faultOf_alike h g r

theorem poll_alike {s t : State} (h : SameButVideo s t) : ResultsAlike (poll s) (poll t) := by
  unfold poll
  rw [h.pending]
  split
  · exact .next h
  · next k _ =>
    have hgate : gateOpen k t = gateOpen k s := by simp only [gateOpen, h.cfg, h.cpu]
    rw [hgate]
    split
    · exact serviceAndUpdate_alike h k
    · exact .next h

theorem afterInstruction_alike {s t : State} (h : SameButVideo s t) :
    ResultsAlike (afterInstruction s) (afterInstruction t) := by
  unfold afterInstruction ppuUpdate
  rw [h.cycles]
  exact poll_alike (ppuDots_sameButVideo h _)

theorem runFetched_alike {s t : State} (h : SameButVideo s t) {q r : Res Instr}
    (hr : Res.Alike q r) : ResultsAlike (runFetched s q) (runFetched t r) := by
  cases hr with
  | err r g => exact faultOf_alike h g r
  | ok i g =>
    have he := exec_alike g i
    unfold runFetched
    dsimp only
    generalize exec i _ = x at he ⊢
    generalize exec i _ = y at he ⊢
    cases he with
    | next g => exact afterInstruction_alike g
    | fault hr g => exact .fault hr g

theorem step_alike {s t : State} (h : SameButVideo s t) : ResultsAlike (step s) (step t) := by
  unfold step
  rw [h.fault, h.paused]
  split
  · next r _ =>
    refine .fault (by cases r <;> rfl) ?_
    rwa [faultState_raise, faultState_raise]
  · split
    · exact .next (h.map (setCycles 0))
    · exact runFetched_alike h (fetch_alike h)

/-- Settles O57: the fetch, the instruction, the PPU dots and the service each do the same in two machines
that differ in VRAM and OAM alone. -/
theorem videoMemoryNeverReachesTheCpu : Obligations.VideoMemoryNeverReachesTheCpu := by
  unfold Obligations.VideoMemoryNeverReachesTheCpu
  intro s t vram oam hlit hstep
  have h := step_alike (SameButVideo.of_literal hlit vram oam)
  rw [hstep] at h
  generalize hq : step (withVideo vram oam s) = q at h
  cases h with
  | next h => exact ⟨_, _, hq.trans (congrArg _ h.same)⟩

end Sys2Proof.Machine
end

section
/-! PROOF. The decoder and the encoder are inverse to each other, row by row of the opcode map (R75, R92),
and a step runs what the bytes at PC decode to (R97, R174). -/

namespace Sys2Proof.Machine

open Sys2Proof

/-! ## The decoder, by the format of a row -/

theorem decode_of_row {op : Byte} {r : Row} (h : rowOf op = some r) (rest : List Byte) :
    decode (op :: rest) = takeOperands r.format rest := by
  simp only [decode, h]

theorem decode_one {op : Byte} {c : Nat} {i : Instr} (h : rowOf op = some ⟨op, c, .one i⟩)
    (rest : List Byte) : decode (op :: rest) = .ok (i, rest) :=
  decode_of_row h rest

theorem decode_two {op : Byte} {c : Nat} {mk : Byte → Instr} (h : rowOf op = some ⟨op, c, .two mk⟩)
    (n : Byte) (rest : List Byte) : decode (op :: n :: rest) = .ok (mk n, rest) :=
  decode_of_row h (n :: rest)

theorem decode_three {op : Byte} {c : Nat} {mk : Word → Instr}
    (h : rowOf op = some ⟨op, c, .three mk⟩) (nn : Word) (rest : List Byte) :
    decode (op :: lowByte nn :: highByte nn :: rest) = .ok (mk nn, rest) := by
  rw [decode_of_row h, takeOperands, joinBytes_split]

/-- The decoder reads an instruction back from its bytes, whatever follows them (R75, R92). -/
theorem decode_encode (i : Instr) (rest : List Byte) : decode (encode i ++ rest) = .ok (i, rest) := by
  cases i
  case tax | tay | txa | tya | tsx | txs | pha | php | pla | plp | inx | iny | dex | dey | aslAcc
      | lsrAcc | rolAcc | rorAcc | rts | brk | rti | nop | clc | sec | cli | sei | cld | sed | clv =>
    exact decode_one rfl rest
  case ldaAbs | ldaAby | ldaAbx | ldxAbs | ldxAby | ldyAbs | ldyAbx | staAbs | staAby | staAbx
      | stxAbs | styAbs | adcAbs | adcAby | adcAbx | sbcAbs | sbcAby | sbcAbx | andAbs | andAby
      | andAbx | oraAbs | oraAby | oraAbx | eorAbs | eorAby | eorAbx | cmpAbs | cmpAby | cmpAbx
      | cpxAbs | cpyAbs | bitAbs | incAbs | incAbx | decAbs | decAbx | aslAbs | aslAbx | lsrAbs
      | lsrAbx | rolAbs | rolAbx | rorAbs | rorAbx | jmpAbs | jmpInd | jsr =>
    exact decode_three rfl _ rest
  all_goals exact decode_two rfl _ rest

/-- Settles O3, from the row of each instruction: a word operand is its two bytes joined again. -/
theorem decodeOfEncode : Obligations.DecodeOfEncode := decode_encode

/-! ## The encoder, by the rows of the opcode map -/

/-- The instructions a row makes are encoded with the row's opcode and their operand bytes (R75). -/
def RowEncodes (r : Row) : Prop :=
  match r.format with
  | .one i => encode i = [r.opcode]
  | .two mk => ∀ n, encode (mk n) = [r.opcode, n]
  | .three mk => ∀ nn, encode (mk nn) = [r.opcode, lowByte nn, highByte nn]

/-- The encoder agrees with the opcode map, row by row (R75, R92). -/
theorem opcodeTable_encodes : ∀ r ∈ opcodeTable, RowEncodes r := by
  simp only [opcodeTable, loadStoreRows, transferStackRows, arithRows, logicRows, incDecRows,
    shiftRows, controlRows, flagRows, List.forall_mem_append, List.forall_mem_cons, RowEncodes,
    List.not_mem_nil, false_imp_iff, implies_true, and_true]
  and_intros
  all_goals
    intros
    rfl

/-- What the operand bytes of a row make is encoded as the row's opcode and those bytes (R75, R77). -/
theorem encode_of_takeOperands {r : Row} (hr : RowEncodes r) {bytes rest : List Byte} {i : Instr}
    (h : takeOperands r.format bytes = .ok (i, rest)) : encode i ++ rest = r.opcode :: bytes := by
  obtain ⟨op, c, fmt⟩ := r
  cases fmt with
  | one j =>
    cases h
    rw [show encode i = [op] from hr]
    rfl
  | two mk =>
    cases bytes with
    | nil => cases h
    | cons n bytes =>
      cases h
      rw [show encode (mk n) = [op, n] from hr n]
      rfl
  | three mk =>
    match bytes with
    | [] | [_] => cases h
    | lo :: hi :: bytes =>
      cases h
      rw [show encode (mk (joinBytes hi lo)) = _ from hr _, lowByte_joinBytes, highByte_joinBytes]
      rfl

/-- A byte string that decodes begins with the opcode of a row, and the operands follow (R74, R93). -/
theorem decode_eq_ok {bytes rest : List Byte} {i : Instr} (h : decode bytes = .ok (i, rest)) :
    ∃ op tail r, bytes = op :: tail ∧ rowOf op = some r ∧
      takeOperands r.format tail = .ok (i, rest) := by
  cases bytes with
  | nil => cases h
  | cons op tail =>
    cases hrow : rowOf op with
    | none => simp only [decode, hrow] at h; cases h
    | some r => exact ⟨op, tail, r, rfl, hrow, by rwa [decode_of_row hrow] at h⟩

theorem rowOf_eq_some {op : Byte} {r : Row} (h : rowOf op = some r) :
    r ∈ opcodeTable ∧ r.opcode = op :=
  ⟨List.mem_of_find?_eq_some h, by simpa using List.find?_some h⟩

theorem encode_of_decode {bytes rest : List Byte} {i : Instr} (h : decode bytes = .ok (i, rest)) :
    encode i ++ rest = bytes := by
  obtain ⟨op, tail, r, rfl, hrow, hops⟩ := decode_eq_ok h
  obtain ⟨hmem, rfl⟩ := rowOf_eq_some hrow
  exact encode_of_takeOperands (opcodeTable_encodes r hmem) hops

/-- Settles O4: the row that the first byte names encodes the instruction it makes. -/
theorem encodeOfDecode : Obligations.EncodeOfDecode := fun _ _ _ => encode_of_decode

/-! ## Words and opcodes of the map -/

/-- Settles O1: each word is the encoding of its instruction, and 0x02 has no row. -/
theorem writtenOutWordsDecode : Obligations.WrittenOutWordsDecode := by
  unfold Obligations.WrittenOutWordsDecode
  exact ⟨decode_encode (.ldaImm 0x2C#8) [], decode_encode (.ldxZpy 0xFF#8) [],
    decode_encode (.staAbs 0x2007#16) [], decode_encode (.staIzy 0x10#8) [], decode_encode .txs [],
    decode_encode .pha [], decode_encode (.adcIzx 0x80#8) [], decode_encode (.sbcAby 0x1234#16) [],
    decode_encode (.bitAbs 0x2002#16) [], decode_encode (.incAbx 0x1234#16) [],
    decode_encode .rorAcc [], decode_encode (.bne 0xFE#8) [], decode_encode (.jmpInd 0x10FF#16) [],
    decode_encode (.jsr 0x8020#16) [0xEA#8], decode_encode .brk [], decode_encode .sed [], rfl⟩

/-- The documented opcodes stand in rising order (R92). Compared as numbers: on bytes the kernel is slow. -/
theorem documentedOpcodes_rising : (documentedOpcodes.map BitVec.toNat).IsChain (· < ·) := by
  decide +kernel

theorem documentedOpcodes_toNat_nodup : (documentedOpcodes.map BitVec.toNat).Nodup :=
  (List.isChain_iff_pairwise.1 documentedOpcodes_rising).imp Nat.ne_of_lt

/-- No opcode has two rows: sorted, the rows are the documented opcodes (R92). -/
theorem opcodeTable_nodup : (opcodeTable.map Row.opcode).Nodup := by
  have hperm := List.perm_insertionSort (· ≤ ·) (opcodeTable.map (·.opcode.toNat))
  rw [sorted_opcodes] at hperm
  have hrows := hperm.nodup documentedOpcodes_toNat_nodup
  exact .of_map BitVec.toNat (by rwa [List.map_map])

/-- Settles O2, from the order of the documented opcodes: sorted, the rows of the table are just those. -/
theorem opcodeMapHasExactlyTheDocumentedRows : Obligations.OpcodeMapHasExactlyTheDocumentedRows :=
  ⟨rfl, .of_map _ documentedOpcodes_toNat_nodup, opcodeTable_nodup, rowOf_isSome⟩

/-! ## The step -/

theorem opcode_of_encode {i : Instr} {op : Byte} {operands : List Byte}
    (h : encode i = op :: operands) : i.opcode = op := by
  rw [Instr.opcode, h]
  rfl

theorem takeOperands_length {fmt : Format} {bytes : List Byte} {i : Instr}
    (h : takeOperands fmt bytes = .ok (i, [])) : bytes.length = formatLength fmt - 1 := by
  unfold takeOperands at h
  split at h
  all_goals cases h
  all_goals rfl

/-- The fetch of bytes that decode to an admitted instruction gives that instruction (R97). -/
theorem fetch_of_decode {s t : State} {i : Instr} {bytes : List Byte}
    (hread : readBytes bytes.length s.cpu.pc s = .ok bytes t) (hdec : decode bytes = .ok (i, []))
    (hadm : i.wellFormed s.cfg = true) : fetch s = .ok i t := by
  have henc := encode_of_decode hdec
  rw [List.append_nil] at henc
  obtain ⟨op, operands, r, rfl, hrow, hops⟩ := decode_eq_ok hdec
  have hadmitted : admittedRow s.cfg op = some r := by
    rw [Instr.wellFormed, opcode_of_encode henc] at hadm
    rw [admittedRow, if_pos hadm, hrow]
  obtain ⟨b, m, hop, hread⟩ := Res.andThen_eq_ok hread
  obtain ⟨bs, u, hbs, hread⟩ := Res.andThen_eq_ok hread
  cases hread
  rw [takeOperands_length hops] at hbs
  simp only [fetch, hop, hadmitted, hbs, hops, Res.andThen_ok]

/-- Settles O5: the fetch gives the decoded instruction, and the run loop goes on from there. -/
theorem stepRunsDecodedInstruction : Obligations.StepRunsDecodedInstruction := by
  unfold Obligations.StepRunsDecodedInstruction
  intro s t i bytes hrun hread hdec hadm
  refine ⟨by simpa [hread] using readBytes_frame bytes.length s.cpu.pc s, ?_⟩
  rw [step_running hrun, fetch_of_decode hread hdec hadm]
  rfl

end Sys2Proof.Machine
end

section
/-! PROOF. The effective addresses as numbers (R81 to R88), and where JMP, JSR and RTS go (R89, R148 to
R150). -/

namespace Sys2Proof.Machine

open Sys2Proof

/-! ## Effective addresses -/

theorem toNat_highByte (w : Word) : (highByte w).toNat = w.toNat / 256 := by
  rw [highByte, BitVec.extractLsb'_toNat, Nat.shiftRight_eq_div_pow]
  have := w.isLt
  omega

theorem zext16_eq_ofNat (n : Byte) : zext16 n = BitVec.ofNat 16 n.toNat :=
  (BitVec.toNat_eq_nat.1 (toNat_zext16 n)).2

/-- A zero-page index wraps mod 256 (R82, R83). -/
theorem zext16_add (m n : Byte) :
    zext16 (m + n) = BitVec.ofNat 16 ((m.toNat + n.toNat) % 256) := by
  rw [zext16_eq_ofNat, BitVec.toNat_add]

/-- Indexing as numbers: the sum mod 65536, and whether its page differs from the base's (R85, R86, R88). -/
theorem indexed_eq (base : Word) (i : Byte) : indexed base i =
    { addr := BitVec.ofNat 16 (base.toNat + i.toNat)
      crossed := decide ((base.toNat + i.toNat) % 65536 / 256 ≠ base.toNat / 256) } := by
  have hsum : (base + zext16 i).toNat = (base.toNat + i.toNat) % 65536 := by
    rw [BitVec.toNat_add, toNat_zext16]
  have haddr : base + zext16 i = BitVec.ofNat 16 (base.toNat + i.toNat) :=
    BitVec.eq_of_toNat_eq (by rw [hsum, BitVec.toNat_ofNat])
  have hcross : (highByte (base + zext16 i) != highByte base) =
      decide ((base.toNat + i.toNat) % 65536 / 256 ≠ base.toNat / 256) := by
    rw [Bool.eq_iff_iff, bne_iff_ne, decide_eq_true_iff, Ne, ← BitVec.toNat_inj, toNat_highByte,
      toNat_highByte, hsum]
  rw [indexed, hcross, haddr]

/-- Both bytes of a zero-page pointer lie in the zero page (R87, R88). -/
theorem toNat_zeroPagePointer (s : State) {n : Byte} {k : Nat} (h : n.toNat = k % 256) :
    (zeroPagePointer s n).toNat =
      (Memory.read s.ram (k % 256)).toNat + 256 * (Memory.read s.ram ((k + 1) % 256)).toNat := by
  have hnext : (n + 1#8).toNat = (k + 1) % 256 := by bv_omega
  rw [zeroPagePointer, toNat_joinBytes, zeroPageByte, zeroPageByte, h, hnext]
  omega

/-- Settles O23, from the numbers of an indexed address and of a zero-page pointer. -/
theorem effectiveAddresses : Obligations.EffectiveAddresses := by
  unfold Obligations.EffectiveAddresses
  intro s n nn x y zp word indexedBy
  have hizx := toNat_zeroPagePointer s (n := n + s.cpu.x) (BitVec.toNat_add n s.cpu.x)
  have hizy := toNat_zeroPagePointer s (Nat.mod_eq_of_lt n.isLt).symm
  refine ⟨fun p => effAddr_eq p s, ?_, ?_, ?_, rfl, indexed_eq nn s.cpu.x, indexed_eq nn s.cpu.y,
    ?_, ?_⟩
  · rw [placeEff, zext16_eq_ofNat]
  · rw [placeEff, zext16_add]
  · rw [placeEff, zext16_add]
  · rw [placeEff, (BitVec.toNat_eq_nat.1 hizx).2]
  · rw [placeEff, indexed_eq, hizy]

/-! ## Jumps -/

theorem execJmpInd_ok {nn : Word} {lo hi : Byte} {s t u : State} (hlo : read8 nn s = .ok lo t)
    (hhi : read8 (joinBytes (highByte nn) (lowByte nn + 1#8)) t = .ok hi u) :
    execJmpInd nn s =
      .next { u with cpu := { s.cpu with pc := joinBytes hi lo }, cycles := 5 } := by
  have hcpu := ((read8_ok_frame hlo).trans (read8_ok_frame hhi)).cpu
  simp only [execJmpInd, readJumpPointer, hlo, hhi, Res.andThen_ok, finish, setPc, setCycles, hcpu]

theorem execJmpInd_low_unmapped {nn : Word} (h : Unmapped nn) (s : State) :
    execJmpInd nn s = .fault (faultOf (.addressOutOfRange nn .read) s s) := by
  simp only [execJmpInd, readJumpPointer, read8_unmapped h, Res.andThen_err]
  rfl

theorem execJmpInd_high_unmapped {nn : Word} {lo : Byte} {s t : State} (hlo : read8 nn s = .ok lo t)
    (h : Unmapped (joinBytes (highByte nn) (lowByte nn + 1#8))) :
    execJmpInd nn s = .fault (faultOf
      (.addressOutOfRange (joinBytes (highByte nn) (lowByte nn + 1#8)) .read) s t) := by
  simp only [execJmpInd, readJumpPointer, hlo, read8_unmapped h, Res.andThen_ok, Res.andThen_err]
  rfl

/-- JSR pushes the address of its last byte (R149). -/
theorem execJsr_eq (nn : Word) (s : State) : execJsr nn s = .next { s with
    ram := pushed (pushed s.ram s.cpu.sp (highByte (s.cpu.pc + 2#16))) (s.cpu.sp - 1#8)
      (lowByte (s.cpu.pc + 2#16))
    cpu := { s.cpu with sp := s.cpu.sp - 2#8, pc := nn }
    cycles := 6 } := by
  have hsp : s.cpu.sp - 1#8 - 1#8 = s.cpu.sp - 2#8 := by bv_omega
  rw [execJsr, push16_eq, hsp]
  rfl

/-- RTS goes on after the address it pulls (R150). -/
theorem execRts_eq (s : State) : execRts s = .next { s with
    cpu := { s.cpu with
      sp := s.cpu.sp + 2#8
      pc := joinBytes (stackByte s (s.cpu.sp + 2#8)) (stackByte s (s.cpu.sp + 1#8)) + 1#16 }
    cycles := 6 } := by
  have hsp : s.cpu.sp + 1#8 + 1#8 = s.cpu.sp + 2#8 := by bv_omega
  rw [execRts, pull16_eq, hsp]
  rfl

/-- Settles O50, from the outcome of each pointer read and the closed forms of push and pull. -/
theorem jumpsAndSubroutines : Obligations.JumpsAndSubroutines := by
  unfold Obligations.JumpsAndSubroutines
  intro s nn second
  refine ⟨rfl, rfl, rfl, fun hlow hhigh => ?_, fun h => execJmpInd_low_unmapped h s,
    fun hlow hhigh => ?_, rfl, execJsr_eq nn s, rfl, execRts_eq s⟩
  · obtain ⟨lo, t, hlo⟩ := read8_mapped hlow s
    obtain ⟨hi, u, hhi⟩ := read8_mapped hhigh t
    exact ⟨lo, hi, t, u, hlo, hhi, execJmpInd_ok hlo hhi⟩
  · obtain ⟨lo, t, hlo⟩ := read8_mapped hlow s
    exact ⟨lo, t, hlo, execJmpInd_high_unmapped hlo hhigh⟩

end Sys2Proof.Machine
end

section
/-! PROOF. The fetch at an unmapped address (R97, R100 items 1 and 3). -/

namespace Sys2Proof.Machine

open Sys2Proof

theorem readBytes_unmapped {a : Word} (h : Unmapped a) (n : Nat) (s : State) :
    readBytes (n + 1) a s = .err (.addressOutOfRange a .read) s := by
  rw [readBytes, read8_unmapped h, Res.andThen_err]

/-- A fault after the first byte stands for the whole sequence of reads. -/
theorem readBytes_err_of_rest {n : Nat} {a : Word} {s t u : State} {b : Byte} {r : FaultRecord}
    (hb : read8 a s = .ok b t) (hrest : readBytes n (a + 1#16) t = .err r u) :
    readBytes (n + 1) a s = .err r u := by
  rw [readBytes, hb, Res.andThen_ok, hrest, Res.andThen_err]

theorem fetch_err_of_opcode {s t : State} {r : FaultRecord} (h : read8 s.cpu.pc s = .err r t) :
    fetch s = .err r t := by
  rw [fetch, h, Res.andThen_err]

/-- The operand bytes are read after the opcode byte, and their fault is the fetch's (R97). -/
theorem fetch_err_of_operands {s t u : State} {op : Byte} {row : Row} {r : FaultRecord}
    (hop : read8 s.cpu.pc s = .ok op t) (hrow : admittedRow s.cfg op = some row)
    (hbs : readBytes (formatLength row.format - 1) (s.cpu.pc + 1#16) t = .err r u) :
    fetch s = .err r u := by
  simp only [fetch, hop, hrow, hbs, Res.andThen_ok, Res.andThen_err]

/-- A fault of the fetch is the fault of the step, with the fetch reads before it kept (R164). -/
theorem step_of_fetch_err {s t : State} {r : FaultRecord} (hrun : Running s) (h : fetch s = .err r t) :
    step s = .fault (faultOf r s t) := by
  rw [step_running hrun, h]
  rfl

/-- Settles O8, from the read that meets the unmapped address: the opcode's, the first or the second
operand byte's. -/
theorem fetchFromUnmappedFaults : Obligations.FetchFromUnmappedFaults := by
  unfold Obligations.FetchFromUnmappedFaults
  refine fun s hrun => ⟨fun h => ?_, fun op t row hop hrow => ⟨fun hlen h => ?_,
    fun b u hlen hb h => ?_⟩⟩
  · exact step_of_fetch_err hrun (fetch_err_of_opcode (read8_unmapped h s))
  · obtain ⟨n, hn⟩ : ∃ n, formatLength row.format - 1 = n + 1 :=
      ⟨formatLength row.format - 2, by omega⟩
    refine step_of_fetch_err hrun (fetch_err_of_operands hop hrow ?_)
    rw [hn]
    exact readBytes_unmapped h n t
  · have hpc : s.cpu.pc + 1#16 + 1#16 = s.cpu.pc + 2#16 := by bv_omega
    refine step_of_fetch_err hrun (fetch_err_of_operands hop hrow ?_)
    rw [hlen]
    exact readBytes_err_of_rest hb (hpc ▸ readBytes_unmapped (hpc ▸ h) 0 u)

end Sys2Proof.Machine
end

section
/-! PROOF. What the rows of a table share, and the rows of the load and store tables (R101 to R106): encoding,
length, cost and meaning (R75, R91, R99). -/

namespace Sys2Proof.Machine

open Sys2Proof

/-! ## Read-class tables -/

/-- The memory modes that index a word, which can cross a page (R85, R86, R88). -/
def Source.canCross : Source → Bool
  | .mem (.abx _) | .mem (.aby _) | .mem (.izy _) => true
  | _ => false

theorem Source.canCross_of_crossed {src : Source} {s : State} (h : sourceCrossed src s = true) :
    src.canCross = true := by
  cases src with
  | imm n => cases h
  | mem p =>
    cases p
    case abx | aby | izy => rfl
    case zp | zpx | zpy | abs | izx => cases h

/-- The page-crossing term of R99 as the tables write it. -/
theorem crossPenalty_eq (cfg : Config) (crossed : Bool) :
    crossPenalty cfg crossed = if crossed = true ∧ cfg.pagePenalty = .on then 1 else 0 := by
  cases h : cfg.pagePenalty <;> simp [crossPenalty, h]

/-- The table of a read-class instruction agrees with the encoder, with one meaning of all its rows, and
with the lengths and costs of the modes (R75, R99, R206). -/
structure ReadTable (forms : List ReadForm) (rule : Source → State → Result) : Prop where
  bytes   : forms.map (fun f => encode f.instr) = forms.map (fun f => f.bytes)
  length  : forms.map (fun f => f.bytes.length) = forms.map (fun f => sourceLength f.source)
  cycles  : forms.map (fun f => f.cycles) = forms.map (fun f => readCost f.source)
  penalty : forms.map (fun f => f.penalty) = forms.map (fun f => f.source.canCross)
  meaning : forms.map (fun f => exec f.instr) = forms.map (fun f => rule f.source)

/-- Every row of such a table does what its rule says, for an operation on the registers that leaves PC. -/
theorem ReadTable.readRule {forms : List ReadForm} {rule : Source → State → Result}
    {op : Config → Byte → Cpu → Cpu} (htable : ReadTable forms rule)
    (hrule : ∀ src s, rule src s = readClass src op s) (hpc : ∀ cfg m c, (op cfg m c).pc = c.pc)
    (s : State) : ∀ f ∈ forms, ReadRule f op s := by
  intro f hf
  have hbytes := List.map_inj_left.1 htable.bytes f hf
  have hlength := List.map_inj_left.1 htable.length f hf
  have hcycles := List.map_inj_left.1 htable.cycles f hf
  have hpenalty := List.map_inj_left.1 htable.penalty f hf
  have hexec : exec f.instr s = readClass f.source op s :=
    (congrFun (List.map_inj_left.1 htable.meaning f hf) s).trans (hrule f.source s)
  have hcross : (f.penalty = true ∧ sourceCrossed f.source s = true ∧ s.cfg.pagePenalty = .on) ↔
      sourceCrossed f.source s = true ∧ s.cfg.pagePenalty = .on :=
    and_iff_right_of_imp fun h => hpenalty.trans (Source.canCross_of_crossed h.1)
  refine ⟨hbytes, fun hreadable => ?_, fun p hp hunmapped => ?_⟩
  · obtain ⟨m, u, hm⟩ := sourceRead_readable hreadable
    refine ⟨m, u, hm, ?_⟩
    rw [hexec, readClass_ok hm, ← hlength, ← hcycles, crossPenalty_eq]
    simp only [retire, setCpu, setPc, setCycles, nextPc, hpc, hcross]
  · have hread : sourceRead f.source s = .err (.addressOutOfRange (placeEff p s).addr .read) s := by
      rw [hp]
      exact read8_unmapped hunmapped s
    rw [hexec, readClass_err hread]
    rfl

theorem ldaForms_table (n : Byte) (nn : Word) : ReadTable (ldaForms n nn) ldaFrom :=
  ⟨rfl, rfl, rfl, rfl, rfl⟩

theorem ldxForms_table (n : Byte) (nn : Word) : ReadTable (ldxForms n nn) ldxFrom :=
  ⟨rfl, rfl, rfl, rfl, rfl⟩

theorem ldyForms_table (n : Byte) (nn : Word) : ReadTable (ldyForms n nn) ldyFrom :=
  ⟨rfl, rfl, rfl, rfl, rfl⟩

/-- Settles O41, from the tables of LDA, LDX and LDY and what one read-class instruction does. -/
theorem loads : Obligations.Loads := by
  unfold Obligations.Loads
  exact fun s n nn => ⟨(ldaForms_table n nn).readRule (fun _ _ => rfl) (fun _ _ _ => rfl) s,
    (ldxForms_table n nn).readRule (fun _ _ => rfl) (fun _ _ _ => rfl) s,
    (ldyForms_table n nn).readRule (fun _ _ => rfl) (fun _ _ _ => rfl) s⟩

/-! ## Store tables -/

/-- The table of an instruction that writes memory agrees with the encoder, with one meaning of all its
rows, and with the lengths and the costs of the modes (R75, R206). -/
structure PlaceTable (forms : List PlaceForm) (rule : Place → State → Result) (cost : Place → Nat) :
    Prop where
  bytes   : forms.map (fun f => encode f.instr) = forms.map (fun f => f.bytes)
  length  : forms.map (fun f => f.bytes.length) = forms.map (fun f => placeLength f.place)
  cycles  : forms.map (fun f => f.cycles) = forms.map (fun f => cost f.place)
  meaning : forms.map (fun f => exec f.instr) = forms.map (fun f => rule f.place)

/-- Every row of a store table does what its rule says. -/
theorem PlaceTable.storeRule {forms : List PlaceForm} {rule : Place → State → Result}
    {value : Cpu → Byte} (htable : PlaceTable forms rule storeCost)
    (hrule : ∀ p s, rule p s = writeClass p value s) (s : State) :
    ∀ f ∈ forms, StoreRule f value s := by
  intro f hf
  have hbytes := List.map_inj_left.1 htable.bytes f hf
  have hlength := List.map_inj_left.1 htable.length f hf
  have hcycles := List.map_inj_left.1 htable.cycles f hf
  have hexec : exec f.instr s = writeClass f.place value s :=
    (congrFun (List.map_inj_left.1 htable.meaning f hf) s).trans (hrule f.place s)
  refine ⟨hbytes, fun hwritable => ?_, fun hnot => ?_⟩
  · obtain ⟨u, hu⟩ := write8_writable hwritable
    refine ⟨u, hu, ?_⟩
    rw [hexec, writeClass_ok hu, ← hlength, ← hcycles]
    simp only [retire, setPc, setCycles, nextPc, dmaPenalty, (write8_ok_frame hu).cpu]
  · obtain ⟨r, u, hu⟩ := write8_not_writable hnot
    refine ⟨r, u, hu, ?_⟩
    rw [hexec, writeClass_err hu]
    rfl

theorem staForms_table (n : Byte) (nn : Word) : PlaceTable (staForms n nn) staTo storeCost :=
  ⟨rfl, rfl, rfl, rfl⟩

theorem stxForms_table (n : Byte) (nn : Word) : PlaceTable (stxForms n nn) stxTo storeCost :=
  ⟨rfl, rfl, rfl, rfl⟩

theorem styForms_table (n : Byte) (nn : Word) : PlaceTable (styForms n nn) styTo storeCost :=
  ⟨rfl, rfl, rfl, rfl⟩

/-- Settles O42, from the tables of STA, STX and STY and what one write-class instruction does. -/
theorem stores : Obligations.Stores := by
  unfold Obligations.Stores
  exact fun s n nn => ⟨(staForms_table n nn).storeRule (fun _ _ => rfl) s,
    (stxForms_table n nn).storeRule (fun _ _ => rfl) s,
    (styForms_table n nn).storeRule (fun _ _ => rfl) s⟩

end Sys2Proof.Machine
end

section
/-! PROOF. The register transfers (R107 to R112) and the pushes and pulls of A and P (R113 to R116): the
whole state each leaves. -/

namespace Sys2Proof.Machine

open Sys2Proof

/-! ## Rows that work on the registers alone -/

/-- A row that works on the registers alone, by an operation that leaves PC, does what its rule says. -/
theorem plainRule_of_registerOnly {i : Instr} {opcode : Byte} {op : Cpu → Cpu} {s : State}
    (hbytes : encode i = [opcode]) (hmeaning : exec i = registerOnly op)
    (hpc : ∀ c, (op c).pc = c.pc) : PlainRule ⟨i, opcode, 2⟩ op s := by
  refine ⟨hbytes, ?_⟩
  rw [hmeaning]
  simp only [registerOnly, retire, setCycles, setPc, setCpu, hpc]

/-- Settles O43: each transfer is one operation on the registers that leaves PC. -/
theorem transfers : Obligations.Transfers := by
  unfold Obligations.Transfers
  intro s
  refine ⟨?tax, ?tay, ?txa, ?tya, ?tsx, ?txs⟩
  all_goals exact plainRule_of_registerOnly rfl rfl fun _ => rfl

/-! ## Pushes and pulls -/

/-- PHA and PHP: one push, in the stack page at every S, so without a fault (R113, R114). -/
theorem finish_push_eq (v : Byte) (s : State) :
    finish s ((push v s).andThen fun _ t => .ok () (retire 1 3 t)) = .next { s with
      ram := pushed s.ram s.cpu.sp v
      cpu := { s.cpu with sp := s.cpu.sp - 1#8, pc := s.cpu.pc + 1#16 }
      cycles := 3 } := by
  rw [push_eq]
  rfl

/-- PLA: the pull meets no fault (R115). -/
theorem execPla_eq (s : State) : execPla s = .next { s with
    cpu := { s.cpu with
      a := stackByte s (s.cpu.sp + 1#8)
      p := setNZ (stackByte s (s.cpu.sp + 1#8)) s.cpu.p
      sp := s.cpu.sp + 1#8, pc := s.cpu.pc + 1#16 }
    cycles := 4 } := by
  rw [execPla, pull_eq]
  rfl

/-- PLP always goes on, so the state it leaves is that of `execPlp_eq` (R116). -/
theorem execPlp_next (s : State) : execPlp s = .next { s with
    cpu := { s.cpu with
      p := pulledStatus s.cfg (stackByte s (s.cpu.sp + 1#8))
      sp := s.cpu.sp + 1#8, pc := s.cpu.pc + 1#16 }
    cycles := 4 } := by
  obtain ⟨t, ht⟩ : ∃ t, execPlp s = .next t := finish_andThen_next (pull_eq s) s _
  rw [ht, execPlp_eq ht]
  rfl

/-- Settles O44, from the closed forms of push and pull, which meet no fault. -/
theorem stackInstructions : Obligations.StackInstructions := by
  unfold Obligations.StackInstructions
  exact fun s => ⟨rfl, rfl, rfl, rfl, finish_push_eq s.cpu.a s,
    finish_push_eq (pushedByInstr s.cfg s.cpu.p) s, execPla_eq s, execPlp_next s⟩

end Sys2Proof.Machine
end

section
/-! PROOF. The binary sum and difference, the compares and BIT: results and flags as numbers (R117, R119,
R124 to R127). -/

namespace Sys2Proof.Machine

open Sys2Proof

/-! ## The flags of an addition -/

/-- The status `q` that an addition leaves of `p`: C, Z and N written, V written where the parameters have
one (R25), every other bit as it was. -/
structure SumFlags (cfg : Config) (p q : Byte) (carry zero negative overflow : Bool) : Prop where
  c : getFlag .c q = carry
  z : getFlag .z q = zero
  n : getFlag .n q = negative
  v : getFlag .v q = match cfg.vFlagMode with
    | .absent => getFlag .v p
    | .nmos => overflow
  kept : ∀ f, f ≠ .c → f ≠ .z → f ≠ .n → f ≠ .v → getFlag f q = getFlag f p

theorem getFlag_v_setV (cfg : Config) (b : Bool) (p : Byte) :
    getFlag .v (setV cfg b p) = match cfg.vFlagMode with
      | .absent => getFlag .v p
      | .nmos => b := by
  unfold setV
  cases cfg.vFlagMode
  case absent => rfl
  case nmos => exact getFlag_setFlag_same .v b p

theorem flagNat_le_one (f : Flag) (p : Byte) : flagNat f p ≤ 1 := by
  unfold flagNat
  split <;> omega

/-- N of a result as a number. -/
theorem msb_eq_decide_le (v : Byte) : v.msb = decide (128 ≤ v.toNat) := BitVec.msb_eq_decide v

theorem toInt_eq_toNat_sub (v : Byte) :
    v.toInt = if v.toNat < 128 then (v.toNat : Int) else v.toNat - 256 := by
  rw [BitVec.toInt_eq_toNat_cond]
  split <;> split <;> omega

/-- The complement that SBC adds, as a signed number. -/
theorem toInt_complement (m : Byte) : (~~~m).toInt = -m.toInt - 1 := by
  have hm := m.isLt
  have hnot : (~~~m).toNat = 255 - m.toNat := BitVec.toNat_not
  rw [toInt_eq_toNat_sub, toInt_eq_toNat_sub, hnot]
  split <;> split <;> omega

/-- The sign test of R117: both operands differ in sign from the result exactly on a signed overflow. -/
theorem msb_overflow {a m r : Byte} {k : Nat} (hk : k ≤ 1)
    (hr : r.toNat = (a.toNat + m.toNat + k) % 256) :
    ((a ^^^ r) &&& (m ^^^ r)).msb =
      decide (a.toInt + m.toInt + k < -128 ∨ 127 < a.toInt + m.toInt + k) := by
  have ha := a.isLt
  have hm := m.isLt
  rw [BitVec.msb_and, BitVec.msb_xor, BitVec.msb_xor, msb_eq_decide_le, msb_eq_decide_le,
    msb_eq_decide_le, toInt_eq_toNat_sub a, toInt_eq_toNat_sub m, Bool.eq_iff_iff]
  simp only [Bool.and_eq_true, bne_iff_ne, ne_eq, decide_eq_decide, decide_eq_true_eq]
  split <;> split <;> omega

/-! ## The binary sum and difference -/

theorem toNat_addBinary (cfg : Config) (a m p : Byte) :
    (addBinary cfg a m p).1.toNat = (a.toNat + m.toNat + flagNat .c p) % 256 :=
  BitVec.toNat_ofNat _ 8

/-- The flags of the binary sum (R117): Z and N of the result, C the carry out, V the signed overflow. -/
theorem addBinary_flags (cfg : Config) (a m p : Byte) :
    SumFlags cfg p (addBinary cfg a m p).2
      (decide (256 ≤ a.toNat + m.toNat + flagNat .c p))
      (decide ((addBinary cfg a m p).1.toNat = 0))
      (decide (128 ≤ (addBinary cfg a m p).1.toNat))
      (decide (a.toInt + m.toInt + flagNat .c p < -128 ∨ 127 < a.toInt + m.toInt + flagNat .c p)) where
  c := by
    simp only [addBinary, getFlag_setNZ_ne (f := .c) (by decide) (by decide), getFlag_setFlag_same]
    rfl
  z := getFlag_z_setNZ _ _
  n := getFlag_n_setNZ _ _
  v := by
    rw [← msb_overflow (flagNat_le_one .c p) (toNat_addBinary cfg a m p)]
    simp only [addBinary, getFlag_setNZ_ne (f := .v) (by decide) (by decide),
      getFlag_setFlag_ne (show Flag.c ≠ .v by decide)]
    exact getFlag_v_setV cfg _ p
  kept := fun _ hc hz hn hv => getFlag_addBinary_ne hz hn hc hv cfg a m p

/-- Adding the complement is subtracting with borrow (R119). -/
theorem toNat_addBinary_complement (cfg : Config) (a m p : Byte) :
    ((addBinary cfg a (~~~m) p).1.toNat : Int) =
      ((a.toNat : Int) - m.toNat - (1 - flagNat .c p)) % 256 := by
  have hm := m.isLt
  have hnot : (~~~m).toNat = 255 - m.toNat := BitVec.toNat_not
  rw [toNat_addBinary, hnot]
  omega

/-- The flags of the binary difference (R119): as those of the sum, with C the no-borrow. -/
theorem addBinary_complement_flags (cfg : Config) (a m p : Byte) :
    SumFlags cfg p (addBinary cfg a (~~~m) p).2
      (decide (m.toNat + (1 - flagNat .c p) ≤ a.toNat))
      (decide ((addBinary cfg a (~~~m) p).1.toNat = 0))
      (decide (128 ≤ (addBinary cfg a (~~~m) p).1.toNat))
      (decide (a.toInt - m.toInt - (1 - flagNat .c p) < -128 ∨
        127 < a.toInt - m.toInt - (1 - flagNat .c p))) := by
  have hm := m.isLt
  have hk := flagNat_le_one .c p
  have hnot : (~~~m).toNat = 255 - m.toNat := BitVec.toNat_not
  have hcarry : 256 ≤ a.toNat + (~~~m).toNat + flagNat .c p ↔
      m.toNat + (1 - flagNat .c p) ≤ a.toNat := by omega
  have hsigned : a.toInt + (~~~m).toInt + flagNat .c p = a.toInt - m.toInt - (1 - flagNat .c p) := by
    rw [toInt_complement]
    ring
  have h := addBinary_flags cfg a (~~~m) p
  rwa [decide_eq_decide.2 hcarry, hsigned] at h

theorem adcAlu_binary {cfg : Config} {p : Byte} (h : decimalOn cfg p = false) (a m : Byte) :
    adcAlu cfg a m p = addBinary cfg a m p := by
  simp [adcAlu, h]

theorem sbcAlu_binary {cfg : Config} {p : Byte} (h : decimalOn cfg p = false) (a m : Byte) :
    sbcAlu cfg a m p = addBinary cfg a (~~~m) p := by
  simp [sbcAlu, h]

/-- `DECIMAL_MODE = off` or a clear D makes ADC and SBC binary (R23). -/
theorem decimalOn_eq_false {cfg : Config} {p : Byte}
    (h : cfg.decimalMode = .off ∨ getFlag .d p = false) : decimalOn cfg p = false := by
  unfold decimalOn
  split
  · rfl
  · exact h.resolve_left (by simp [*])

/-- Settles O38, from the sum as a number and the flags it leaves; the difference is the sum with the
complement. -/
theorem binaryAddAndSubtract : Obligations.BinaryAddAndSubtract := by
  unfold Obligations.BinaryAddAndSubtract
  intro cfg a m p hbinary
  have hoff := decimalOn_eq_false hbinary
  have hsum := addBinary_flags cfg a m p
  have hdif := addBinary_complement_flags cfg a m p
  rw [adcAlu_binary hoff, sbcAlu_binary hoff]
  exact ⟨⟨toNat_addBinary cfg a m p, hsum.c, hsum.z, hsum.n, hsum.v, hsum.kept⟩,
    toNat_addBinary_complement cfg a m p, hdif.c, hdif.z, hdif.n, hdif.v, hdif.kept⟩

/-! ## Compares and bit tests -/

/-- Z and N of a difference, in the words of the compares (R124 to R126). -/
theorem getFlag_setNZ_sub (r m p : Byte) :
    getFlag .z (setNZ (r - m) p) = decide (r = m) ∧
      getFlag .n (setNZ (r - m) p) = decide (128 ≤ (r.toNat + 256 - m.toNat) % 256) := by
  have hr := r.isLt
  have hm := m.isLt
  rw [getFlag_z_setNZ, getFlag_n_setNZ, decide_eq_decide, decide_eq_decide, ← BitVec.toNat_inj,
    BitVec.toNat_sub]
  omega

/-- Outside C a compare is `setNZ` of the difference. -/
theorem getFlag_compareFlags {f : Flag} (hc : f ≠ .c) (r m p : Byte) :
    getFlag f (compareFlags r m p) = getFlag f (setNZ (r - m) p) := by
  rw [compareFlags, getFlag_setFlag_ne hc.symm]

theorem getFlag_cmpFlags {f : Flag} (hc : f ≠ .c) (cfg : Config) (r m p : Byte) :
    getFlag f (cmpFlags cfg r m p) = getFlag f (setNZ (r - m) p) := by
  unfold cmpFlags
  split
  · split
    · rw [getFlag_setFlag_ne hc.symm]
    · rfl
  · exact getFlag_compareFlags hc r m p

theorem getFlag_c_compareFlags (r m p : Byte) :
    getFlag .c (compareFlags r m p) = decide (m.toNat ≤ r.toNat) :=
  getFlag_setFlag_same .c _ _

/-- CMP writes C both ways, or under `CMP_CARRY_MODE = sticky` only sets it (R124). -/
theorem getFlag_c_cmpFlags (cfg : Config) (r m p : Byte) :
    getFlag .c (cmpFlags cfg r m p) = match cfg.cmpCarryMode with
      | .sticky => decide (m.toNat ≤ r.toNat) || getFlag .c p
      | .nmos => decide (m.toNat ≤ r.toNat) := by
  unfold cmpFlags
  cases cfg.cmpCarryMode
  case nmos => exact getFlag_c_compareFlags r m p
  case sticky =>
    by_cases hle : m.toNat ≤ r.toNat
    · simp [hle]
    · simp [hle, getFlag_setNZ_ne (f := .c)]

theorem getFlag_z_bitFlags (cfg : Config) (r m p : Byte) :
    getFlag .z (bitFlags cfg r m p) = decide (r &&& m = 0x00#8) := by
  rw [bitFlags, getFlag_setV_ne (by decide), getFlag_setFlag_ne (by decide), getFlag_setFlag_same,
    Bool.beq_eq_decide_eq]

theorem getFlag_n_bitFlags (cfg : Config) (r m p : Byte) :
    getFlag .n (bitFlags cfg r m p) = decide (128 ≤ m.toNat) := by
  rw [bitFlags, getFlag_setV_ne (by decide), getFlag_setFlag_same, msb_eq_decide_le]

/-- BIT takes V from bit 6 of the operand, where the parameters have a V (R25, R127). -/
theorem getFlag_v_bitFlags (cfg : Config) (r m p : Byte) :
    getFlag .v (bitFlags cfg r m p) = match cfg.vFlagMode with
      | .absent => getFlag .v p
      | .nmos => decide (m.toNat / 64 % 2 = 1) := by
  have hbit : m.getLsbD 6 = decide (m.toNat / 64 % 2 = 1) := Nat.testBit_eq_decide_div_mod_eq
  rw [bitFlags, getFlag_v_setV, getFlag_setFlag_ne (by decide), getFlag_setFlag_ne (by decide), hbit]

/-- Settles O40: outside C the compares are `setNZ` of the difference, and BIT is its three flags. -/
theorem compareAndBitFlags : Obligations.CompareAndBitFlags := by
  unfold Obligations.CompareAndBitFlags
  refine fun cfg r m p => ⟨fun q hq => ?_, getFlag_c_cmpFlags cfg r m p, getFlag_c_compareFlags r m p,
    getFlag_z_bitFlags cfg r m p, getFlag_n_bitFlags cfg r m p, getFlag_v_bitFlags cfg r m p,
    fun f hz hn hv => getFlag_bitFlags_ne hz hn hv cfg r m p⟩
  have hNZ : ∀ f, f ≠ .c → getFlag f q = getFlag f (setNZ (r - m) p) := by
    obtain rfl | rfl := hq
    · exact fun f hc => getFlag_cmpFlags hc cfg r m p
    · exact fun f hc => getFlag_compareFlags hc r m p
  obtain ⟨hz, hn⟩ := getFlag_setNZ_sub r m p
  exact ⟨(hNZ .z (by decide)).trans hz, (hNZ .n (by decide)).trans hn,
    fun f hfc hfz hfn => (hNZ f hfc).trans (getFlag_setNZ_ne hfz hfn (r - m) p)⟩

end Sys2Proof.Machine
end

section
/-! PROOF. Decimal ADC and SBC (R118, R120): the results as numbers worked out on the two digits of each
operand, for every byte pair, and on decimal operands the decimal sum and difference. -/

namespace Sys2Proof.Machine

open Sys2Proof

/-! ## The digits of a byte -/

/-- The digit that the decimal algorithms read as the ones (R118, R120). -/
def lowDigit (v : Byte) : Nat := v.toNat % 16

/-- The digit that the decimal algorithms read as the tens (R118, R120). -/
def highDigit (v : Byte) : Nat := v.toNat / 16

/-- The high digit as a signed number, as the signed view of R118 takes it. -/
def signedHighDigit (v : Byte) : Int :=
  if highDigit v < 8 then (highDigit v : Int) else (highDigit v : Int) - 16

theorem toNat_eq_digits (v : Byte) : v.toNat = 16 * highDigit v + lowDigit v :=
  (Nat.div_add_mod v.toNat 16).symm

theorem lowDigit_lt (v : Byte) : lowDigit v < 16 := Nat.mod_lt v.toNat (by decide)

theorem toNat_and_0x0F (v : Byte) : (v &&& 0x0F#8).toNat = lowDigit v := by
  rw [BitVec.toNat_and]
  exact Nat.and_two_pow_sub_one_eq_mod v.toNat 4

theorem toNat_and_0xF0 (v : Byte) : (v &&& 0xF0#8).toNat = 16 * highDigit v := by
  revert v
  decide +kernel

theorem toInt_and_0xF0 (v : Byte) : (v &&& 0xF0#8).toInt = 16 * signedHighDigit v := by
  rw [toInt_eq_toNat_sub, toNat_and_0xF0, signedHighDigit]
  split <;> split <;> omega

/-! ## The algorithms on the digits -/

/-- The low digits of a decimal sum, a carry out of them counting 16 (R118). -/
def sumOnes (a m : Byte) (c : Nat) : Nat :=
  let digit := lowDigit a + lowDigit m + c
  if digit < 10 then digit else (digit + 6) % 16 + 16

/-- The decimal sum, a carry out of it counting 256 (R118). -/
def sumTotal (a m : Byte) (c : Nat) : Nat :=
  let tens := 16 * (highDigit a + highDigit m) + sumOnes a m c
  if tens < 160 then tens else tens + 96

/-- The signed number that N and V of a decimal sum are taken from (R118). -/
def signedSum (a m : Byte) (c : Nat) : Int :=
  16 * (signedHighDigit a + signedHighDigit m) + sumOnes a m c

/-- The low digits of a decimal difference, a borrow from them counting -16 (R120). -/
def differenceOnes (a m : Byte) (c : Nat) : Int :=
  let digit : Int := (lowDigit a : Int) - lowDigit m - (1 - c)
  if 0 ≤ digit then digit else (digit - 6) % 16 - 16

/-- The decimal difference, negative where it borrows (R120). -/
def differenceTotal (a m : Byte) (c : Nat) : Int :=
  let tens := 16 * ((highDigit a : Int) - highDigit m) + differenceOnes a m c
  if 0 ≤ tens then tens else tens - 96

/-- `adc_dec` on the digits (R118). -/
theorem adcDecimal_eq (cfg : Config) (a m p : Byte) : adcDecimal cfg a m p =
    (BitVec.ofNat 8 (sumTotal a m (flagNat .c p)),
      setV cfg (signedSum a m (flagNat .c p) < -128 || 127 < signedSum a m (flagNat .c p))
        (setFlag .n (BitVec.ofInt 8 (signedSum a m (flagNat .c p))).msb
          (setFlag .z (BitVec.ofNat 8 (a.toNat + m.toNat + flagNat .c p) == 0x00#8)
            (setFlag .c (256 ≤ sumTotal a m (flagNat .c p)) p)))) := by
  simp only [adcDecimal, signedSum, sumTotal, sumOnes, toNat_and_0x0F, toNat_and_0xF0, toInt_and_0xF0,
    ← Nat.not_le, ite_not,
    mul_add]

/-- The result of `sbc_dec` on the digits (R120). -/
theorem sbcDecimal_result (cfg : Config) (a m p : Byte) :
    (sbcDecimal cfg a m p).1 = BitVec.ofInt 8 (differenceTotal a m (flagNat .c p)) := by
  have hdigit : (lowDigit a : Int) - lowDigit m + flagNat .c p - 1 =
      lowDigit a - lowDigit m - (1 - flagNat .c p) := by ring
  simp only [sbcDecimal, differenceTotal, differenceOnes, toNat_and_0x0F, toNat_and_0xF0, hdigit,
    ← Int.not_le, ite_not, mul_sub, Nat.cast_mul, Nat.cast_ofNat]

theorem toNat_ofInt_eight (i : Int) : ((BitVec.ofInt 8 i).toNat : Int) = i % 256 := by
  rw [BitVec.toNat_ofInt]
  omega

/-! ## The flags -/

/-- The flags of decimal ADC (R118): C of the total, Z of the binary sum, N and V of the signed sum. -/
theorem adcDecimal_flags (cfg : Config) (a m p : Byte) :
    SumFlags cfg p (adcDecimal cfg a m p).2
      (decide (256 ≤ sumTotal a m (flagNat .c p)))
      (decide ((a.toNat + m.toNat + flagNat .c p) % 256 = 0))
      (decide (128 ≤ signedSum a m (flagNat .c p) % 256))
      (decide (signedSum a m (flagNat .c p) < -128 ∨ 127 < signedSum a m (flagNat .c p))) where
  c := by
    rw [adcDecimal_eq, getFlag_setV_ne (by decide), getFlag_setFlag_ne (by decide),
      getFlag_setFlag_ne (by decide), getFlag_setFlag_same]
  z := by
    rw [adcDecimal_eq, getFlag_setV_ne (by decide), getFlag_setFlag_ne (by decide), getFlag_setFlag_same,
      Bool.beq_eq_decide_eq, decide_eq_decide, ← BitVec.toNat_inj, BitVec.toNat_ofNat]
    rfl
  n := by
    have hsigned := toNat_ofInt_eight (signedSum a m (flagNat .c p))
    rw [adcDecimal_eq, getFlag_setV_ne (by decide), getFlag_setFlag_same, msb_eq_decide_le,
      decide_eq_decide]
    omega
  v := by
    rw [adcDecimal_eq, Bool.decide_or, getFlag_v_setV, getFlag_setFlag_ne (by decide),
      getFlag_setFlag_ne (by decide), getFlag_setFlag_ne (by decide)]
  kept := fun f hc hz hn hv => by
    rw [adcDecimal_eq, getFlag_setV_ne hv, getFlag_setFlag_ne hn.symm, getFlag_setFlag_ne hz.symm,
      getFlag_setFlag_ne hc.symm]

/-- The flags of decimal SBC are those of the binary difference (R120). -/
theorem sbcDecimal_flags (cfg : Config) (a m p : Byte) :
    SumFlags cfg p (sbcDecimal cfg a m p).2
      (decide (m.toNat + (1 - flagNat .c p) ≤ a.toNat))
      (decide (((a.toNat : Int) - m.toNat - (1 - flagNat .c p)) % 256 = 0))
      (decide (128 ≤ ((a.toNat : Int) - m.toNat - (1 - flagNat .c p)) % 256))
      (decide (a.toInt - m.toInt - (1 - flagNat .c p) < -128 ∨
        127 < a.toInt - m.toInt - (1 - flagNat .c p))) := by
  have hresult := toNat_addBinary_complement cfg a m p
  have hflags := addBinary_complement_flags cfg a m p
  have hzero : (addBinary cfg a (~~~m) p).1.toNat = 0 ↔
      ((a.toNat : Int) - m.toNat - (1 - flagNat .c p)) % 256 = 0 := by omega
  have hnegative : 128 ≤ (addBinary cfg a (~~~m) p).1.toNat ↔
      128 ≤ ((a.toNat : Int) - m.toNat - (1 - flagNat .c p)) % 256 := by omega
  rwa [decide_eq_decide.2 hzero, decide_eq_decide.2 hnegative] at hflags

/-! ## Decimal operands -/

/-- Both digits of the byte are decimal. -/
def IsDecimal (v : Byte) : Prop := highDigit v < 10 ∧ lowDigit v < 10

/-- The byte read as two decimal digits. -/
def decimalValue (v : Byte) : Nat := highDigit v * 10 + lowDigit v

theorem decimal_of_toNat {r : Byte} {h l : Nat} (hh : h < 10) (hl : l < 10)
    (hr : r.toNat = 16 * h + l) : IsDecimal r ∧ decimalValue r = 10 * h + l := by
  have hlow := lowDigit_lt r
  rw [toNat_eq_digits] at hr
  rw [IsDecimal, decimalValue]
  omega

/-- Decimal low digits add with a decimal carry `k`, which counts 16 (R118). -/
theorem sumOnes_decimal {a m : Byte} {c : Nat} (ha : IsDecimal a) (hm : IsDecimal m) (hc : c ≤ 1) :
    ∃ l k, l < 10 ∧ k ≤ 1 ∧ lowDigit a + lowDigit m + c = 10 * k + l ∧
      sumOnes a m c = 16 * k + l := by
  obtain ⟨-, hal⟩ := ha
  obtain ⟨-, hml⟩ := hm
  by_cases hdigit : lowDigit a + lowDigit m + c < 10
  · exact ⟨lowDigit a + lowDigit m + c, 0, by omega, by omega, by omega, by simp [sumOnes, hdigit]⟩
  · refine ⟨lowDigit a + lowDigit m + c - 10, 1, by omega, by omega, by omega, ?_⟩
    simp only [sumOnes, hdigit, if_false]
    omega

/-- The decimal sum of decimal operands, digit by digit: its carry `k` counts 100, and 256 in the total
(R118). -/
theorem sumTotal_decimal {a m : Byte} {c : Nat} (ha : IsDecimal a) (hm : IsDecimal m) (hc : c ≤ 1) :
    ∃ h l k, h < 10 ∧ l < 10 ∧ decimalValue a + decimalValue m + c = 100 * k + (10 * h + l) ∧
      sumTotal a m c = 256 * k + (16 * h + l) := by
  obtain ⟨l, k, hl, hk, hdigit, hones⟩ := sumOnes_decimal ha hm hc
  obtain ⟨hah, -⟩ := ha
  obtain ⟨hmh, -⟩ := hm
  simp only [decimalValue, sumTotal, hones]
  by_cases hcarry : highDigit a + highDigit m + k < 10
  · refine ⟨highDigit a + highDigit m + k, l, 0, hcarry, hl, by omega, ?_⟩
    rw [if_pos (by omega)]
    omega
  · refine ⟨highDigit a + highDigit m + k - 10, l, 1, by omega, hl, by omega, ?_⟩
    rw [if_neg (by omega)]
    omega

/-- Decimal low digits subtract with a decimal borrow `k`, which counts 16 (R120). -/
theorem differenceOnes_decimal {a m : Byte} {c : Nat} (ha : IsDecimal a) (hm : IsDecimal m)
    (hc : c ≤ 1) : ∃ l k : Nat, l < 10 ∧ k ≤ 1 ∧
      (lowDigit a : Int) - lowDigit m - (1 - c) = l - 10 * k ∧ differenceOnes a m c = l - 16 * k := by
  obtain ⟨-, hal⟩ := ha
  obtain ⟨-, hml⟩ := hm
  by_cases hdigit : 0 ≤ (lowDigit a : Int) - lowDigit m - (1 - c)
  · refine ⟨lowDigit a - lowDigit m - (1 - c), 0, by omega, by omega, by omega, ?_⟩
    simp only [differenceOnes, hdigit, if_true]
    omega
  · refine ⟨lowDigit a + 10 - lowDigit m - (1 - c), 1, by omega, by omega, by omega, ?_⟩
    simp only [differenceOnes, hdigit, if_false]
    omega

/-- The decimal difference of decimal operands, digit by digit: its borrow `k` counts 100, and 256 in the
total (R120). -/
theorem differenceTotal_decimal {a m : Byte} {c : Nat} (ha : IsDecimal a) (hm : IsDecimal m)
    (hc : c ≤ 1) : ∃ h l k : Nat, h < 10 ∧ l < 10 ∧ k ≤ 1 ∧
      (decimalValue a : Int) - decimalValue m - (1 - c) = 10 * h + l - 100 * k ∧
      differenceTotal a m c = 16 * h + l - 256 * k := by
  obtain ⟨l, k, hl, hk, hdigit, hones⟩ := differenceOnes_decimal ha hm hc
  obtain ⟨hah, -⟩ := ha
  obtain ⟨hmh, -⟩ := hm
  simp only [decimalValue, differenceTotal, hones]
  by_cases hborrow : highDigit m + k ≤ highDigit a
  · refine ⟨highDigit a - highDigit m - k, l, 0, by omega, hl, by omega, by omega, ?_⟩
    rw [if_pos (by omega)]
    omega
  · refine ⟨highDigit a + 10 - highDigit m - k, l, 1, by omega, hl, by omega, by omega, ?_⟩
    rw [if_neg (by omega)]
    omega

/-- On decimal operands the result is the decimal sum, and C its carry (R118). -/
theorem decimal_sum {a m r : Byte} {c : Nat} (ha : IsDecimal a) (hm : IsDecimal m) (hc : c ≤ 1)
    (hr : r.toNat = sumTotal a m c % 256) :
    IsDecimal r ∧ decimalValue r = (decimalValue a + decimalValue m + c) % 100 ∧
      (256 ≤ sumTotal a m c ↔ 100 ≤ decimalValue a + decimalValue m + c) := by
  obtain ⟨h, l, k, hh, hl, hvalue, htotal⟩ := sumTotal_decimal ha hm hc
  obtain ⟨hdigits, hdecimal⟩ := decimal_of_toNat (r := r) hh hl (by omega)
  exact ⟨hdigits, by omega, by omega⟩

/-- On decimal operands the result is the decimal difference mod 100 (R120). -/
theorem decimal_difference {a m r : Byte} {c : Nat} (ha : IsDecimal a) (hm : IsDecimal m) (hc : c ≤ 1)
    (hr : (r.toNat : Int) = differenceTotal a m c % 256) :
    IsDecimal r ∧ decimalValue r = (decimalValue a + 100 - decimalValue m - (1 - c)) % 100 := by
  obtain ⟨h, l, k, hh, hl, hk, hvalue, htotal⟩ := differenceTotal_decimal ha hm hc
  obtain ⟨hdigits, hdecimal⟩ := decimal_of_toNat (r := r) hh hl (by omega)
  exact ⟨hdigits, by omega⟩

/-- On decimal operands the binary no-borrow is the decimal one. -/
theorem noBorrow_decimal {a m : Byte} {c : Nat} (ha : IsDecimal a) (hm : IsDecimal m) (hc : c ≤ 1) :
    m.toNat + (1 - c) ≤ a.toNat ↔ decimalValue m + (1 - c) ≤ decimalValue a := by
  obtain ⟨-, hal⟩ := ha
  obtain ⟨-, hml⟩ := hm
  rw [toNat_eq_digits a, toNat_eq_digits m, decimalValue, decimalValue]
  omega

theorem adcAlu_decimal {cfg : Config} {p : Byte} (hmode : cfg.decimalMode = .nmos)
    (hd : getFlag .d p = true) (a m : Byte) : adcAlu cfg a m p = adcDecimal cfg a m p := by
  simp [adcAlu, decimalOn, hmode, hd]

theorem sbcAlu_decimal {cfg : Config} {p : Byte} (hmode : cfg.decimalMode = .nmos)
    (hd : getFlag .d p = true) (a m : Byte) : sbcAlu cfg a m p = sbcDecimal cfg a m p := by
  simp [sbcAlu, decimalOn, hmode, hd]

/-- Settles O39, from the results and the flags on the digits, and what they are on decimal operands. -/
theorem decimalAddAndSubtract : Obligations.DecimalAddAndSubtract := by
  unfold Obligations.DecimalAddAndSubtract
  intro cfg a m p hmode hd
  have hc := flagNat_le_one .c p
  have hsum : (adcDecimal cfg a m p).1.toNat = sumTotal a m (flagNat .c p) % 256 := by
    rw [adcDecimal_eq, BitVec.toNat_ofNat]
  have hdif : ((sbcDecimal cfg a m p).1.toNat : Int) = differenceTotal a m (flagNat .c p) % 256 := by
    rw [sbcDecimal_result, toNat_ofInt_eight]
  have hadd := adcDecimal_flags cfg a m p
  have hsub := sbcDecimal_flags cfg a m p
  rw [adcAlu_decimal hmode hd, sbcAlu_decimal hmode hd]
  refine ⟨⟨hsum, hadd.c, hadd.z, hadd.n, hadd.v, hadd.kept⟩,
    ⟨hdif, hsub.c, hsub.z, hsub.n, hsub.v, hsub.kept, rfl⟩, fun ha hm => ?_⟩
  obtain ⟨hsumDigits, hsumValue, hcarry⟩ := decimal_sum ha hm hc hsum
  obtain ⟨hdifDigits, hdifValue⟩ := decimal_difference ha hm hc hdif
  exact ⟨hsumDigits, hsumValue, hadd.c.trans (decide_eq_decide.2 hcarry), hdifDigits, hdifValue,
    hsub.c.trans (decide_eq_decide.2 (noBorrow_decimal ha hm hc))⟩

end Sys2Proof.Machine
end

section
/-! PROOF. The rows of the arithmetic, logical, compare and bit-test tables (R117 to R127): encoding, length,
cost and meaning (R75, R91, R99). -/

namespace Sys2Proof.Machine

open Sys2Proof

theorem adcForms_table (n : Byte) (nn : Word) : ReadTable (adcForms n nn) adcFrom :=
  ⟨rfl, rfl, rfl, rfl, rfl⟩

theorem sbcForms_table (n : Byte) (nn : Word) : ReadTable (sbcForms n nn) sbcFrom :=
  ⟨rfl, rfl, rfl, rfl, rfl⟩

theorem andForms_table (n : Byte) (nn : Word) : ReadTable (andForms n nn) andFrom :=
  ⟨rfl, rfl, rfl, rfl, rfl⟩

theorem oraForms_table (n : Byte) (nn : Word) : ReadTable (oraForms n nn) oraFrom :=
  ⟨rfl, rfl, rfl, rfl, rfl⟩

theorem eorForms_table (n : Byte) (nn : Word) : ReadTable (eorForms n nn) eorFrom :=
  ⟨rfl, rfl, rfl, rfl, rfl⟩

theorem cmpForms_table (n : Byte) (nn : Word) : ReadTable (cmpForms n nn) cmpFrom :=
  ⟨rfl, rfl, rfl, rfl, rfl⟩

theorem cpxForms_table (n : Byte) (nn : Word) : ReadTable (cpxForms n nn) cpxFrom :=
  ⟨rfl, rfl, rfl, rfl, rfl⟩

theorem cpyForms_table (n : Byte) (nn : Word) : ReadTable (cpyForms n nn) cpyFrom :=
  ⟨rfl, rfl, rfl, rfl, rfl⟩

theorem bitForms_table (n : Byte) (nn : Word) : ReadTable (bitForms n nn) bitFrom :=
  ⟨rfl, rfl, rfl, rfl, rfl⟩

/-- Settles O45, from the tables of the five instructions and what one read-class instruction does. -/
theorem arithmeticAndLogic : Obligations.ArithmeticAndLogic := by
  unfold Obligations.ArithmeticAndLogic
  exact fun s n nn => ⟨(adcForms_table n nn).readRule (fun _ _ => rfl) (fun _ _ _ => rfl) s,
    (sbcForms_table n nn).readRule (fun _ _ => rfl) (fun _ _ _ => rfl) s,
    (andForms_table n nn).readRule (fun _ _ => rfl) (fun _ _ _ => rfl) s,
    (oraForms_table n nn).readRule (fun _ _ => rfl) (fun _ _ _ => rfl) s,
    (eorForms_table n nn).readRule (fun _ _ => rfl) (fun _ _ _ => rfl) s⟩

/-- Settles O46, from the tables of the four instructions and what one read-class instruction does. -/
theorem compareAndBit : Obligations.CompareAndBit := by
  unfold Obligations.CompareAndBit
  exact fun s n nn => ⟨(cmpForms_table n nn).readRule (fun _ _ => rfl) (fun _ _ _ => rfl) s,
    (cpxForms_table n nn).readRule (fun _ _ => rfl) (fun _ _ _ => rfl) s,
    (cpyForms_table n nn).readRule (fun _ _ => rfl) (fun _ _ _ => rfl) s,
    (bitForms_table n nn).readRule (fun _ _ => rfl) (fun _ _ _ => rfl) s⟩

end Sys2Proof.Machine
end

section
/-! PROOF. Increment, decrement, shift and rotate (R128 to R137): the result and the carry of each shift as
numbers, then the rows on memory and on the registers. -/

namespace Sys2Proof.Machine

open Sys2Proof

/-! ## Shifts and rotates as numbers -/

/-- The result and `P` of a shift or rotate that gives the number `r` (taken mod 256) and the carry. -/
def shifted (r : Nat) (carry : Bool) (p : Byte) : Byte × Byte :=
  (BitVec.ofNat 8 r, setNZ (BitVec.ofNat 8 r) (setFlag .c carry p))

/-- The bit that a left shift moves into C. -/
theorem getLsbD_seven_eq (v : Byte) : v.getLsbD 7 = decide (128 ≤ v.toNat) := by
  rw [← msb_eq_decide_le, BitVec.msb_eq_getLsbD_last]

/-- The bit that a right shift moves into C. -/
theorem getLsbD_zero_eq (v : Byte) : v.getLsbD 0 = decide (v.toNat % 2 = 1) := Nat.testBit_zero v.toNat

theorem shiftLeft_one_or {k : Nat} (hk : k ≤ 1) (v : Byte) :
    v <<< 1 ||| BitVec.ofNat 8 k = BitVec.ofNat 8 (2 * v.toNat + k) := by
  have hor := Nat.two_pow_add_eq_or_of_lt (i := 1) (b := k) (by omega) (v.toNat % 128)
  have hleft : (v <<< 1).toNat = 2 ^ 1 * (v.toNat % 128) := by
    rw [BitVec.toNat_shiftLeft, Nat.shiftLeft_eq]
    omega
  have hcarry : (BitVec.ofNat 8 k).toNat = k := Nat.mod_eq_of_lt (by omega)
  apply BitVec.eq_of_toNat_eq
  rw [BitVec.toNat_or, hleft, hcarry, ← hor, BitVec.toNat_ofNat]
  omega

theorem shiftRight_one_or {k : Nat} (hk : k ≤ 1) (v : Byte) :
    v >>> 1 ||| BitVec.ofNat 8 k <<< 7 = BitVec.ofNat 8 (v.toNat / 2 + 128 * k) := by
  have hv := v.isLt
  have hor := Nat.two_pow_add_eq_or_of_lt (i := 7) (b := v.toNat / 2) (by omega) k
  have hright : (v >>> 1).toNat = v.toNat / 2 := by
    rw [BitVec.toNat_ushiftRight, Nat.shiftRight_eq_div_pow, Nat.pow_one]
  have hcarry : (BitVec.ofNat 8 k <<< 7).toNat = 2 ^ 7 * k := by
    rw [BitVec.toNat_shiftLeft, Nat.shiftLeft_eq, BitVec.toNat_ofNat]
    omega
  apply BitVec.eq_of_toNat_eq
  rw [BitVec.toNat_or, hright, hcarry, Nat.or_comm, ← hor, BitVec.toNat_ofNat]
  omega

theorem shiftLeft_one (v : Byte) : v <<< 1 = BitVec.ofNat 8 (2 * v.toNat) := by
  simpa using shiftLeft_one_or (Nat.zero_le 1) v

theorem shiftRight_one (v : Byte) : v >>> 1 = BitVec.ofNat 8 (v.toNat / 2) := by
  simpa using shiftRight_one_or (Nat.zero_le 1) v

theorem aslAlu_eq (v p : Byte) : aslAlu v p = shifted (2 * v.toNat) (decide (128 ≤ v.toNat)) p := by
  rw [aslAlu, shiftLeft_one, getLsbD_seven_eq, shifted]

theorem lsrAlu_eq (v p : Byte) : lsrAlu v p = shifted (v.toNat / 2) (decide (v.toNat % 2 = 1)) p := by
  rw [lsrAlu, shiftRight_one, getLsbD_zero_eq, shifted]

theorem rolAlu_eq (v p : Byte) :
    rolAlu v p = shifted (2 * v.toNat + flagNat .c p) (decide (128 ≤ v.toNat)) p := by
  rw [rolAlu, shiftLeft_one_or (flagNat_le_one .c p), getLsbD_seven_eq, shifted]

theorem rorAlu_eq (v p : Byte) :
    rorAlu v p = shifted (v.toNat / 2 + 128 * flagNat .c p) (decide (v.toNat % 2 = 1)) p := by
  rw [rorAlu, shiftRight_one_or (flagNat_le_one .c p), getLsbD_zero_eq, shifted]

/-! ## Read-modify-write tables -/

/-- Every row of a read-modify-write table does what its rule says, for any account `result` of what the
instruction computes. -/
theorem PlaceTable.modifyRule {forms : List PlaceForm} {rule : Place → State → Result}
    {alu result : Byte → Byte → Byte × Byte} (htable : PlaceTable forms rule rmwCost)
    (hrule : ∀ p s, rule p s = modifyClass p alu s) (halu : ∀ v p, alu v p = result v p) (s : State) :
    ∀ f ∈ forms, ModifyRule f result s := by
  intro f hf
  obtain rfl : alu = result := funext₂ halu
  have hbytes := List.map_inj_left.1 htable.bytes f hf
  have hlength := List.map_inj_left.1 htable.length f hf
  have hcycles := List.map_inj_left.1 htable.cycles f hf
  have hexec : exec f.instr s = modifyClass f.place alu s :=
    (congrFun (List.map_inj_left.1 htable.meaning f hf) s).trans (hrule f.place s)
  refine ⟨hbytes, fun hmapped => ?_, fun hunmapped => ?_⟩
  · obtain ⟨v, u, hv⟩ := read8_mapped hmapped s
    have hread := read8_ok_frame hv
    refine ⟨v, u, hv, fun hwritable => ?_, fun hnot => ?_⟩
    · obtain ⟨w, hw⟩ := write8_writable (hread.cfg.symm ▸ hwritable)
      refine ⟨w, hw, ?_⟩
      rw [hexec, modifyClass_ok hv hw, ← hlength, ← hcycles]
      simp only [retire, setP, setPc, setCycles, nextPc, dmaPenalty, (write8_ok_frame hw).cpu,
        hread.cpu]
    · obtain ⟨r, w, hw⟩ := write8_not_writable (hread.cfg.symm ▸ hnot)
      refine ⟨r, w, hw, ?_⟩
      rw [hexec, modifyClass_write_err hv hw]
      rfl
  · rw [hexec, modifyClass_read_err (read8_unmapped hunmapped s)]
    rfl

theorem incForms_table (n : Byte) (nn : Word) : PlaceTable (incForms n nn) incAt rmwCost :=
  ⟨rfl, rfl, rfl, rfl⟩

theorem decForms_table (n : Byte) (nn : Word) : PlaceTable (decForms n nn) decAt rmwCost :=
  ⟨rfl, rfl, rfl, rfl⟩

theorem aslForms_table (n : Byte) (nn : Word) : PlaceTable (aslForms n nn) aslAt rmwCost :=
  ⟨rfl, rfl, rfl, rfl⟩

theorem lsrForms_table (n : Byte) (nn : Word) : PlaceTable (lsrForms n nn) lsrAt rmwCost :=
  ⟨rfl, rfl, rfl, rfl⟩

theorem rolForms_table (n : Byte) (nn : Word) : PlaceTable (rolForms n nn) rolAt rmwCost :=
  ⟨rfl, rfl, rfl, rfl⟩

theorem rorForms_table (n : Byte) (nn : Word) : PlaceTable (rorForms n nn) rorAt rmwCost :=
  ⟨rfl, rfl, rfl, rfl⟩

/-- Settles O47, from the tables of the six instructions, what one read-modify-write instruction does, and
the shifts as numbers. -/
theorem modifyMemory : Obligations.ModifyMemory := by
  unfold Obligations.ModifyMemory
  exact fun s n nn => ⟨(incForms_table n nn).modifyRule (fun _ _ => rfl) (fun _ _ => rfl) s,
    (decForms_table n nn).modifyRule (fun _ _ => rfl) (fun _ _ => rfl) s,
    (aslForms_table n nn).modifyRule (fun _ _ => rfl) aslAlu_eq s,
    (lsrForms_table n nn).modifyRule (fun _ _ => rfl) lsrAlu_eq s,
    (rolForms_table n nn).modifyRule (fun _ _ => rfl) rolAlu_eq s,
    (rorForms_table n nn).modifyRule (fun _ _ => rfl) rorAlu_eq s⟩

/-! ## Register forms -/

/-- An operation on the accumulator and `P` (R79). -/
def onAccumulator (alu : Byte → Byte → Byte × Byte) (c : Cpu) : Cpu :=
  { c with a := (alu c.a c.p).1, p := (alu c.a c.p).2 }

/-- An accumulator form does what its rule says, for any account `result` of what it computes. -/
theorem plainRule_of_onAccumulator {i : Instr} {opcode : Byte} {alu result : Byte → Byte → Byte × Byte}
    (hbytes : encode i = [opcode]) (hmeaning : exec i = registerOnly (onAccumulator alu))
    (halu : ∀ v p, alu v p = result v p) (s : State) :
    PlainRule ⟨i, opcode, 2⟩ (onAccumulator result) s := by
  obtain rfl : alu = result := funext₂ halu
  exact plainRule_of_registerOnly hbytes hmeaning fun _ => rfl

/-- Settles O48: each form is one operation on the registers that leaves PC, and the shifts are those of the
accumulator as numbers. -/
theorem modifyRegisters : Obligations.ModifyRegisters := by
  unfold Obligations.ModifyRegisters
  intro s
  refine ⟨?inx, ?iny, ?dex, ?dey, ?aslAcc, ?lsrAcc, ?rolAcc, ?rorAcc⟩
  case inx | iny | dex | dey => exact plainRule_of_registerOnly rfl rfl fun _ => rfl
  case aslAcc => exact plainRule_of_onAccumulator rfl rfl aslAlu_eq s
  case lsrAcc => exact plainRule_of_onAccumulator rfl rfl lsrAlu_eq s
  case rolAcc => exact plainRule_of_onAccumulator rfl rfl rolAlu_eq s
  case rorAcc => exact plainRule_of_onAccumulator rfl rfl rorAlu_eq s

end Sys2Proof.Machine
end

section
/-! PROOF. The eight branches, with the target as a signed number (R90, R138 to R146), and BRK, RTI and NOP:
the whole state each leaves (R151 to R153). -/

namespace Sys2Proof.Machine

open Sys2Proof

/-! ## Branches -/

/-- The displacement is signed, and the target wraps mod 65536 (R90). -/
theorem branchTarget_eq_ofInt (pc : Word) (n : Byte) :
    branchTarget (pc + 2#16) n = BitVec.ofInt 16 (pc.toNat + 2 + n.toInt) := by
  have hnext : pc + 2#16 = BitVec.ofInt 16 (pc.toNat + 2) := by
    rw [BitVec.ofInt_add, BitVec.ofInt_natCast, BitVec.ofNat_toNat, BitVec.setWidth_eq]
    rfl
  rw [branchTarget, BitVec.ofInt_add, ← hnext]
  rfl

/-- The page of an address as a number (R138). -/
theorem highByte_eq_iff (a b : Word) : highByte a = highByte b ↔ a.toNat / 256 = b.toNat / 256 := by
  rw [← BitVec.toNat_inj, toNat_highByte, toNat_highByte]

/-- A taken branch costs a cycle more when it leaves the page of the next instruction (R138). -/
theorem branchCost_taken (next target : Word) : branchCost true next target =
    if target.toNat / 256 = next.toNat / 256 then 3 else 4 := by
  simp only [branchCost, if_true, ne_eq, highByte_eq_iff, ite_not]

/-- A row whose meaning is `branch` under its flag's condition does what R138 says. -/
theorem branchRule_of_branch {i : Instr} {opcode : Byte} {flag : Flag} {takenOn taken : Bool} {n : Byte}
    {s : State} (hbytes : encode i = [opcode, n]) (hmeaning : exec i s = branch taken n s)
    (htaken : taken = true ↔ getFlag flag s.cpu.p = takenOn) :
    BranchRule ⟨i, opcode, flag, takenOn⟩ n s := by
  refine ⟨hbytes, fun h => ?taken, fun h => ?notTaken⟩
  case taken =>
    rw [hmeaning, htaken.2 h, branch, branchCost_taken, branchTarget_eq_ofInt]
    rfl
  case notTaken =>
    rw [hmeaning, Bool.eq_false_iff.2 (mt htaken.1 h)]
    rfl

/-- Settles O49: each row is `branch`, four of them on the flag set and four on it clear. -/
theorem branches : Obligations.Branches := by
  unfold Obligations.Branches
  intro s n
  simp only [branchForms, List.forall_mem_cons]
  refine ⟨?bcc, ?bcs, ?beq, ?bmi, ?bne, ?bpl, ?bvc, ?bvs, List.forall_mem_nil _⟩
  case bcs | beq | bmi | bvs => exact branchRule_of_branch rfl rfl Iff.rfl
  case bcc | bne | bpl | bvc => exact branchRule_of_branch rfl rfl (Bool.not_eq_true' _).to_iff

/-! ## BRK and RTI -/

/-- BRK takes the exception through 0xFFFE, returning behind the byte after it (R151). -/
theorem execBrk_eq (s : State) : execBrk s = .next { s with
    ram := pushed (pushed (pushed s.ram s.cpu.sp (highByte (s.cpu.pc + 2#16))) (s.cpu.sp - 1#8)
      (lowByte (s.cpu.pc + 2#16))) (s.cpu.sp - 2#8) (pushedByInstr s.cfg s.cpu.p)
    cpu := { s.cpu with
      sp := s.cpu.sp - 3#8, p := s.cpu.p ||| 0x04#8, pc := prgWord s.cart 0xFFFE#16 }
    cycles := 7 } := by
  have hsp : s.cpu.sp - 1#8 - 1#8 = s.cpu.sp - 2#8 := by bv_omega
  have hsp' : s.cpu.sp - 2#8 - 1#8 = s.cpu.sp - 3#8 := by bv_omega
  rw [execBrk, enterHandler_eq _ _ (by decide) (by decide), hsp, hsp']
  rfl

/-- RTI always goes on: P, then PC as it was pushed (R152). -/
theorem execRti_next (s : State) : execRti s = .next { s with
    cpu := { s.cpu with
      p := pulledStatus s.cfg (stackByte s (s.cpu.sp + 1#8))
      sp := s.cpu.sp + 3#8
      pc := joinBytes (stackByte s (s.cpu.sp + 3#8)) (stackByte s (s.cpu.sp + 2#8)) }
    cycles := 6 } := by
  have hsp : s.cpu.sp + 1#8 + 1#8 = s.cpu.sp + 2#8 := by bv_omega
  have hsp' : s.cpu.sp + 2#8 + 1#8 = s.cpu.sp + 3#8 := by bv_omega
  rw [execRti, returnFromInterrupt_eq, hsp, hsp']
  rfl

/-- Settles O51, from the closed forms of taking an exception and returning from one; NOP is a register row
that changes nothing. -/
theorem breakReturnAndNoOperation : Obligations.BreakReturnAndNoOperation := by
  unfold Obligations.BreakReturnAndNoOperation
  intro s sp ret v
  exact ⟨rfl, execBrk_eq s, rfl, execRti_next s, plainRule_of_registerOnly rfl rfl fun _ => rfl⟩

end Sys2Proof.Machine
end

section
/-! PROOF. The flag instructions (R154 to R160): setting a flag is an OR with its mask, clearing it an AND with
the complement, and each row writes P in one of these two ways. -/

namespace Sys2Proof.Machine

open Sys2Proof

/-! ## One flag written -/

theorem setFlag_true_eq (f : Flag) (p : Byte) : setFlag f true p = p ||| flagMask f := rfl

theorem setFlag_false_eq (f : Flag) (p : Byte) : setFlag f false p = p &&& ~~~flagMask f := rfl

/-- The rules R154 to R160 write the mask kept when a flag is cleared as a literal. -/
theorem setFlag_false_of_keepMask {f : Flag} {keep : Byte} (hkeep : ~~~flagMask f = keep) (p : Byte) :
    setFlag f false p = p &&& keep := by
  rw [setFlag_false_eq, hkeep]

/-! ## The rows -/

/-- An operation on `P` that leaves the other registers. -/
def onStatus (write : Byte → Byte) (c : Cpu) : Cpu := { c with p := write c.p }

/-- A row that writes one flag does what its rule says, for any account `write` of the `P` it leaves. -/
theorem plainRule_of_setFlag {i : Instr} {opcode : Byte} (f : Flag) (b : Bool) {write : Byte → Byte}
    (hbytes : encode i = [opcode]) (hmeaning : exec i = registerOnly (onStatus (setFlag f b)))
    (hwrite : ∀ p, setFlag f b p = write p) (s : State) :
    PlainRule ⟨i, opcode, 2⟩ (onStatus write) s := by
  obtain rfl : setFlag f b = write := funext hwrite
  exact plainRule_of_registerOnly hbytes hmeaning fun _ => rfl

/-- Settles O52: each row writes one flag, and its rule's literal is the mask of that flag or the
complement. -/
theorem flagInstructions : Obligations.FlagInstructions := by
  unfold Obligations.FlagInstructions
  intro s
  refine ⟨?clc, ?sec, ?cli, ?sei, ?cld, ?sed, ?clv⟩
  case clc => exact plainRule_of_setFlag .c false rfl rfl (setFlag_false_of_keepMask rfl) s
  case sec => exact plainRule_of_setFlag .c true rfl rfl (setFlag_true_eq .c) s
  case cli => exact plainRule_of_setFlag .i false rfl rfl (setFlag_false_of_keepMask rfl) s
  case sei => exact plainRule_of_setFlag .i true rfl rfl (setFlag_true_eq .i) s
  case cld => exact plainRule_of_setFlag .d false rfl rfl (setFlag_false_of_keepMask rfl) s
  case sed => exact plainRule_of_setFlag .d true rfl rfl (setFlag_true_eq .d) s
  case clv => exact plainRule_of_setFlag .v false rfl rfl (setFlag_false_of_keepMask rfl) s

end Sys2Proof.Machine
end

section
/-! PROOF. The faults of a step: the opcode byte outside `OPCODE_SET` (R93, R163), and what the state a fault
leaves still holds (R164). -/

namespace Sys2Proof.Machine

open Sys2Proof

/-- An opcode byte outside `OPCODE_SET` has no admitted row (R7, R93). -/
theorem admittedRow_of_outside {cfg : Config} {op : Byte}
    (h : documentedOpcodes.contains op = false ∨ op ∈ cfg.opcodesRemoved) :
    admittedRow cfg op = none := by
  unfold admittedRow
  obtain h | h := h
  · have hrow : rowOf op = none :=
      Option.not_isSome_iff_eq_none.1 (by rw [rowOf_isSome, h]; exact Bool.false_ne_true)
    rw [hrow, ite_self]
  · simp [Config.admits, h]

/-- The fetch stops at the byte it cannot decode, before any operand byte (R163). -/
theorem fetch_err_of_unknown {s t : State} {op : Byte} (hop : read8 s.cpu.pc s = .ok op t)
    (hrow : admittedRow s.cfg op = none) : fetch s = .err (.unknownOpcode s.cpu.pc op) t := by
  simp only [fetch, hop, Res.andThen_ok, hrow]

/-- Settles O7: the fetch has read the opcode byte alone when it finds no row for it. -/
theorem unknownOpcodeFaults : Obligations.UnknownOpcodeFaults := by
  unfold Obligations.UnknownOpcodeFaults
  exact fun s t op hrun hop hout =>
    step_of_fetch_err hrun (fetch_err_of_unknown hop (admittedRow_of_outside hout))

/-- Settles O10: a fault stands after accesses alone, and takes the registers from before the step. -/
theorem faultKeepsRegistersAndTime : Obligations.FaultKeepsRegistersAndTime := by
  unfold Obligations.FaultKeepsRegistersAndTime
  intro s f hrun h
  obtain ⟨r, u, rfl, hu⟩ := step_fault hrun h
  obtain ⟨-, hpending, -, hpaused, hcart, htiming, -, hcfg⟩ := hu.frame
  rw [faultState_faultOf, faultRecord_faultOf]
  exact ⟨rfl, rfl, hpending, htiming, rfl, hpaused.trans hrun.2, hcart, hcfg⟩

end Sys2Proof.Machine
end

section
/-! PROOF. The register ports as whole states (R186 to R193), and `peek` against a read (R177). -/

namespace Sys2Proof.Machine

open Sys2Proof

/-! ## `peek` -/

/-- Where `peek` shows a byte, a read returns that byte (R53, R177). -/
theorem read8_of_peek {a : Word} {v : Byte} {s : State} (h : peek a s = .byte v) :
    ∃ t, read8 a s = .ok v t := by
  cases hr : regionOf a with
  | ram i | ppuReg i | prg i =>
    simp only [peek, hr, Peek.byte.injEq] at h
    subst h
    simp only [read8, readCell, hr, Res.andThen_ok]
    exact ⟨_, rfl⟩
  | io | unmapped => simp only [peek, hr, reduceCtorEq] at h

theorem peek_mapped {a : Word} (hm : ¬Unmapped a) (hio : ¬(0x4000 ≤ a.toNat ∧ a.toNat < 0x4020))
    (s : State) : ∃ v, peek a s = .byte v := by
  unfold peek
  cases hr : regionOf a with
  | ram i | ppuReg i | prg i => exact ⟨_, rfl⟩
  | io => exact absurd (regionOf_io_iff.1 hr) hio
  | unmapped => exact absurd (regionOf_unmapped.1 hr) hm

/-- Settles O24: `peek` and `Read8` decode the address alike. -/
theorem peekShowsWhatReadReturns : Obligations.PeekShowsWhatReadReturns := by
  unfold Obligations.PeekShowsWhatReadReturns
  refine fun s a => ⟨fun h => ?_, fun h => ?_, fun hm hio => ?_⟩
  · simp only [peek, regionOf_io h.1 h.2]
  · simp only [peek, regionOf_unmapped.2 h]
  · obtain ⟨v, hv⟩ := peek_mapped hm hio s
    obtain ⟨t, ht⟩ := read8_of_peek hv
    exact ⟨v, t, ht, hv⟩

/-! ## The control, mask and sprite ports -/

/-- A bit of a byte as a number. -/
theorem getLsbD_eq_decide (v : Byte) (i : Nat) : v.getLsbD i = decide (v.toNat / 2 ^ i % 2 = 1) :=
  Nat.testBit_eq_decide_div_mod_eq

theorem extractLsb'_two (v : Byte) : v.extractLsb' 0 2 = BitVec.ofNat 2 (v.toNat % 4) := by
  apply BitVec.eq_of_toNat_eq
  rw [BitVec.extractLsb'_toNat, BitVec.toNat_ofNat]
  exact (Nat.mod_mod _ 4).symm

/-- The fields of the control register as numbers (R186). -/
theorem onWrite2000_eq (v : Byte) (s : State) : onWrite2000 v s = { s with control := {
    nametable := BitVec.ofNat 2 (v.toNat % 4)
    increment := if v.toNat / 4 % 2 = 1 then .by32 else .by1
    spriteBase := if v.toNat / 8 % 2 = 1 then .at1000 else .at0000
    bgBase := if v.toNat / 16 % 2 = 1 then .at1000 else .at0000
    spriteSize := if v.toNat / 32 % 2 = 1 then .size8x16 else .size8x8
    nmiEnable := decide (128 ≤ v.toNat)
    monochrome := s.control.monochrome } } := by
  rw [onWrite2000, extractLsb'_two, getLsbD_seven_eq]
  simp only [getLsbD_eq_decide, decide_eq_true_eq, Nat.reducePow]

/-- Settles O26: each port is its cell's write and its observer. -/
theorem controlMaskAndSpritePorts : Obligations.ControlMaskAndSpritePorts := by
  unfold Obligations.ControlMaskAndSpritePorts
  intro s v
  refine ⟨?control, ?mask, ?address, ?data, ?read⟩
  case control =>
    rw [write8_port (i := 0) (by decide) rfl, notifyWrite, onWrite2000_eq]
    rfl
  case mask =>
    rw [write8_port (i := 1) (by decide) rfl, notifyWrite, onWrite2001, getLsbD_zero_eq]
    rfl
  case address => exact write8_port (i := 3) (by decide) rfl v s
  case data => exact write8_port (i := 4) (by decide) rfl v s
  case read => exact read8_port (i := 4) (by decide) rfl s

/-! ## The status port -/

/-- Clearing bit 7 (R188). -/
theorem and_0x7F (v : Byte) : v &&& 0x7F#8 = BitVec.ofNat 8 (v.toNat % 128) := by
  apply BitVec.eq_of_toNat_eq
  have hlow : (v &&& 0x7F#8).toNat = v.toNat % 128 := Nat.and_two_pow_sub_one_eq_mod v.toNat 7
  rw [hlow, BitVec.toNat_ofNat]
  omega

theorem read8_status (s : State) : read8 0x2002#16 s = .ok (Memory.read s.ppuReg 2) (onRead2002 s) :=
  read8_port (i := 2) (by decide) rfl s

/-- The status read as a whole state (R188). -/
theorem onRead2002_eq (s : State) : onRead2002 s = { s with
    ppuReg := Memory.write s.ppuReg 2 (BitVec.ofNat 8 ((Memory.read s.ppuReg 2).toNat % 128))
    cursors := { s.cursors with latchHi := 0x00#8, latchLo := 0x00#8, latchNext := .high } } := by
  rw [onRead2002, and_0x7F]
  rfl

/-- Settles O27: the second read finds the byte that the first one stored. -/
theorem statusRead : Obligations.StatusRead := by
  unfold Obligations.StatusRead
  intro s hwf v t
  refine ⟨by rw [read8_status, onRead2002_eq], onRead2002 t, ?_⟩
  rw [read8_status, Memory.read_write_same hwf]

/-! ## The address latch and the data port -/

/-- The latch write that fills the high byte (R189). -/
theorem write8_latch_high {s : State} (h : s.cursors.latchNext = .high) (v : Byte) :
    write8 0x2006#16 v s = .ok () { s with
      ppuReg := Memory.write s.ppuReg 6 v
      cursors := { s.cursors with latchHi := v, latchNext := .low } } := by
  rw [write8_port (i := 6) (by decide) rfl]
  simp only [notifyWrite, onWrite2006, h]
  rfl

/-- The latch write that fills the low byte, and the pointer (R189). -/
theorem write8_latch_low {s : State} (h : s.cursors.latchNext = .low) (v : Byte) :
    write8 0x2006#16 v s = .ok () { s with
      ppuReg := Memory.write s.ppuReg 6 v
      cursors := { s.cursors with
        latchLo := v, latchNext := .high, vramPtr := joinBytes s.cursors.latchHi v } } := by
  rw [write8_port (i := 6) (by decide) rfl]
  simp only [notifyWrite, onWrite2006, h]
  rfl

/-- The data port write (R190). -/
theorem write8_data (v : Byte) (s : State) : write8 0x2007#16 v s = .ok () { s with
    ppuReg := Memory.write s.ppuReg 7 v
    vram := (vramWrite s.cursors.vramPtr v s).vram
    cursors := { s.cursors with
      vramPtr := s.cursors.vramPtr + incrementValue s.control.increment } } :=
  write8_port (i := 7) (by decide) rfl v s

theorem read8_data (s : State) : read8 0x2007#16 s =
    .ok (Memory.read s.ppuReg 7) (onRead2007 (Memory.read s.ppuReg 7) s) :=
  read8_port (i := 7) (by decide) rfl s

theorem incrementValue_eq (i : Increment) :
    incrementValue i = match i with | .by1 => 1#16 | .by32 => 32#16 := by
  cases i <;> rfl

/-- Settles O29, from the write of each half of the latch and of the data port, and the read in each mode. -/
theorem latchAndDataPort : Obligations.LatchAndDataPort := by
  unfold Obligations.LatchAndDataPort
  intro s v inc w p
  have hinc : incrementValue s.control.increment = inc := incrementValue_eq _
  refine ⟨fun h => write8_latch_high h v, fun h => ?low, ?write, fun h => ?literal, fun h => ?buffered⟩
  case low => rw [write8_latch_low h, joinBytes_eq_ofNat]
  case write => rw [write8_data, hinc]
  case literal =>
    rw [read8_data, onRead2007, h, ← hinc]
    rfl
  case buffered =>
    rw [read8_data, onRead2007, h, ← hinc]
    rfl

/-- A VRAM write is seen at its own address (R64, R65). -/
theorem vramRead_vramWrite_same {s : State} (h : Memory.wf s.vram) (a : Word) (v : Byte) :
    vramRead a (vramWrite a v s) = v := by
  rw [vramRead_vramWrite h, if_pos (.inl rfl)]

/-- Settles O28: the status read sets the latch to its high half, so the two writes give the pointer, and the
data write goes there. -/
theorem writeAfterStatusReadLandsAtTheLatchedAddress :
    Obligations.WriteAfterStatusReadLandsAtTheLatchedAddress := by
  unfold Obligations.WriteAfterStatusReadLandsAtTheLatchedAddress
  intro s hi lo v hwf
  refine ⟨_, _, _, _, _, read8_status s, write8_latch_high rfl hi, write8_latch_low rfl lo,
    write8_data v _, rfl, vramRead_vramWrite_same hwf (joinBytes hi lo) v, ?_⟩
  rw [incrementValue_eq]
  rfl

end Sys2Proof.Machine
end

section
/-! PROOF. OAM DMA (R194): what a copy of cells does while its source is readable, and where it stops. -/

namespace Sys2Proof.Machine

open Sys2Proof

/-- OAM with its cells `0 .. n - 1` filled in order. -/
def filled (bytes : Nat → Byte) (oam : Memory) : Nat → Memory
  | 0 => oam
  | n + 1 => Memory.write (filled bytes oam n) n (bytes n)

theorem filled_wf {oam : Memory} (h : Memory.wf oam) (bytes : Nat → Byte) (n : Nat) :
    Memory.wf (filled bytes oam n) := by
  induction n with
  | zero => exact h
  | succ n ih => exact Memory.write_wf ih n (bytes n)

theorem read_filled {oam : Memory} (h : Memory.wf oam) (bytes : Nat → Byte) (n i : Nat) :
    Memory.read (filled bytes oam n) i = if i < n then bytes i else Memory.read oam i := by
  induction n with
  | zero => rfl
  | succ n ih =>
    rw [filled, Memory.read_write (filled_wf h bytes n), ih]
    by_cases hin : n = i
    · subst hin
      simp
    · rw [if_neg hin]
      exact if_congr (by omega) rfl rfl

/-- The address that an OAM DMA from page `v` reads for cell `k` (R194). -/
def dmaSource (v : Byte) (k : Nat) : Word := joinBytes v (BitVec.ofNat 8 k)

theorem toNat_dmaSource {v : Byte} {k : Nat} (hk : k < 256) :
    (dmaSource v k).toNat = v.toNat * 256 + k := by
  rw [dmaSource, toNat_joinBytes, BitVec.toNat_ofNat, Nat.mod_eq_of_lt hk]

/-- The copy while its source is readable: `after k` is the state after `k` reads, OAM apart (R194). -/
theorem dmaCopy_filled {v : Byte} {bytes : Nat → Byte} {after : Nat → State} {oam : Memory}
    {i n : Nat} (hread : ∀ k m, k < i + n → readCell (dmaSource v k) { after k with oam := m } =
      .ok (bytes k) { after (k + 1) with oam := m }) (rest : Nat) :
    dmaCopy v (n + rest) i { after i with oam := filled bytes oam i } =
      dmaCopy v rest (i + n) { after (i + n) with oam := filled bytes oam (i + n) } := by
  induction n generalizing i with
  | zero => rw [Nat.zero_add]; rfl
  | succ n ih =>
    have hstep : i + (n + 1) = i + 1 + n := by omega
    rw [hstep] at hread ⊢
    rw [← ih hread, Nat.add_right_comm, dmaCopy, ← dmaSource, hread i _ (by omega)]
    rfl

/-- A copy stops at the first unmapped address, with the cells before it copied (R164, R194). -/
theorem dmaCopy_unmapped {v : Byte} {i : Nat} (h : Unmapped (dmaSource v i)) (n : Nat) (s : State) :
    dmaCopy v (n + 1) i s = .err (.addressOutOfRange (dmaSource v i) .read) s := by
  rw [dmaCopy, readCell, ← dmaSource, regionOf_unmapped.2 h]
  rfl

theorem write8_dma (v : Byte) (s : State) : write8 0x4014#16 v s = dmaCopy v 256 0 s := by
  rw [write8_io (by decide) (by decide), if_pos rfl, onWrite4014]

/-- A DMA from a source whose reads have no effect (R194): `n` cells, then the rest. -/
theorem dmaCopy_quiet {v : Byte} {bytes : Nat → Byte} {s : State} {n : Nat}
    (hread : ∀ k m, k < n → readCell (dmaSource v k) { s with oam := m } =
      .ok (bytes k) { s with oam := m }) (rest : Nat) :
    dmaCopy v (n + rest) 0 s = dmaCopy v rest n { s with oam := filled bytes s.oam n } := by
  have h := dmaCopy_filled (i := 0) (after := fun _ => s) (oam := s.oam)
    (by simpa only [Nat.zero_add] using hread) rest
  rwa [Nat.zero_add] at h

theorem readCell_codeByte {a : Word} (h : a.toNat < 0x2000 ∨ 0x8000 ≤ a.toNat) (s : State) :
    readCell a s = .ok (codeByte s a) s := by
  unfold codeByte
  split
  · rw [readCell, regionOf_ram ‹_›]
  · rw [readCell, regionOf_prg (h.resolve_left ‹_›)]
    rfl

theorem readCell_register {k : Nat} (hk : k < 8) (s : State) (m : Memory) :
    readCell (dmaSource 0x20#8 k) { s with oam := m } =
      .ok (Memory.read s.ppuReg k) { s with oam := m } := by
  have hsrc : (dmaSource 0x20#8 k).toNat = 0x2000 + k := toNat_dmaSource (by omega)
  rw [readCell, regionOf_ppuReg (by omega) (by omega), hsrc, Nat.add_sub_cancel_left]

theorem readCell_draw {k : Nat} (hk : k < 32) (s : State) (m : Memory) :
    readCell (dmaSource 0x40#8 k) { s with oam := m, ioSeq := s.ioSeq + k } =
      .ok (Config.ioRead (s.ioSeq + k) (0x4000#16 + BitVec.ofNat 16 k))
        { s with oam := m, ioSeq := s.ioSeq + (k + 1) } := by
  have hsrc : (dmaSource 0x40#8 k).toNat = 0x4000 + k := toNat_dmaSource (by omega)
  have haddr : dmaSource 0x40#8 k = 0x4000#16 + BitVec.ofNat 16 k := by bv_omega
  rw [readCell, regionOf_io (by omega) (by omega), haddr]
  rfl

/-- A DMA from a page of RAM, its mirrors or PRG fills OAM (R194). -/
theorem dma_page {v : Byte} (hv : v.toNat < 0x20 ∨ 0x80 ≤ v.toNat) {s : State}
    (hwf : Memory.wf s.oam) : ∃ m, write8 0x4014#16 v s = .ok () { s with oam := m } ∧
      ∀ i, i < 256 → Memory.read m i = codeByte s (dmaSource v i) := by
  refine ⟨_, (write8_dma v s).trans (dmaCopy_quiet (fun k m hk => readCell_codeByte ?_ _) 0),
    fun i hi => (read_filled hwf _ 256 i).trans (if_pos hi)⟩
  rw [toNat_dmaSource hk]
  omega

/-- A DMA from the register page copies the eight cells, and stops behind them (R194). -/
theorem dma_registers {s : State} (hwf : Memory.wf s.oam) : ∃ m, write8 0x4014#16 0x20#8 s =
      .err (.addressOutOfRange 0x2008#16 .read) { s with oam := m } ∧
    ∀ i, Memory.read m i = if i < 8 then Memory.read s.ppuReg i else Memory.read s.oam i := by
  refine ⟨_, ?_, read_filled hwf (Memory.read s.ppuReg) 8⟩
  rw [write8_dma, dmaCopy_quiet (n := 8) (fun k m hk => readCell_register hk s m) 248]
  exact dmaCopy_unmapped (.inl (by decide)) 247 _

/-- A DMA from the I/O page copies 32 draws, and stops behind them (R49, R194). -/
theorem dma_draws {s : State} (hwf : Memory.wf s.oam) : ∃ m, write8 0x4014#16 0x40#8 s =
      .err (.addressOutOfRange 0x4020#16 .read) { s with oam := m, ioSeq := s.ioSeq + 32 } ∧
    ∀ i, Memory.read m i = if i < 32 then Config.ioRead (s.ioSeq + i) (0x4000#16 + BitVec.ofNat 16 i)
      else Memory.read s.oam i := by
  have hcopy := dmaCopy_filled (i := 0) (n := 32) (after := fun k => { s with ioSeq := s.ioSeq + k })
    (oam := s.oam) (fun k m hk => readCell_draw (by omega) s m) 224
  exact ⟨_, (write8_dma _ s).trans (hcopy.trans (dmaCopy_unmapped (.inr (by decide)) 223 _)),
    read_filled hwf _ 32⟩

/-- Settles O30: the copy fills OAM as far as its page is readable, and stops where it is not. -/
theorem oamDma : Obligations.OamDma := by
  unfold Obligations.OamDma
  refine fun s v hwf => ⟨fun hv => ?page, fun hv => ?registers, fun hv => ?draws,
    fun hlow hhigh hio => ?first⟩
  case page =>
    obtain ⟨m, hm, hread⟩ := dma_page hv hwf
    refine ⟨_, hm, rfl, fun i hi => ?_⟩
    rw [hread i hi, codeByte, toNat_dmaSource hi]
    exact if_congr (by omega) rfl rfl
  case registers =>
    subst hv
    obtain ⟨m, hm, hread⟩ := dma_registers hwf
    exact ⟨_, rfl, hm, hread⟩
  case draws =>
    subst hv
    obtain ⟨m, hm, hread⟩ := dma_draws hwf
    exact ⟨_, rfl, hm, hread⟩
  case first =>
    have hne : v.toNat ≠ 0x40 := fun h => hio (BitVec.eq_of_toNat_eq h)
    refine (write8_dma v s).trans (dmaCopy_unmapped ?_ 255 s)
    rw [Unmapped, toNat_dmaSource (by decide)]
    omega

end Sys2Proof.Machine
end

section
/-! PROOF. The PPU timing machine over any number of dots (R181 to R184): where the counters come to stand,
and what else the dots change. -/

namespace Sys2Proof.Machine

open Sys2Proof

/-! ## The counters -/

theorem ppuDots_timingOk (n : Nat) {s : State} (hL : Config.wf s.cfg)
    (h : TimingOk s.cfg.lineDots s.timing) : TimingOk s.cfg.lineDots (ppuDots n s).timing := by
  induction n generalizing s with
  | zero => exact h
  | succ n ih =>
    have hcfg : (ppuDot s).cfg = s.cfg := (ppuDots_hostFrame 1 s).cfg
    have hnext := ih (s := ppuDot s) (hcfg ▸ hL) (hcfg ▸ ppuDot_timingOk hL h)
    rwa [hcfg] at hnext

theorem TimingOk.frameDots_lt {L : Nat} {t : PpuTiming} (h : TimingOk L t) :
    t.frameDots < 262 * L := by
  obtain ⟨hline, hscan, hframe, -⟩ := h
  have := Nat.mul_le_mul_right L (show t.scanline ≤ 261 by omega)
  omega

/-- The frame counter fixes the others (R182, R183). -/
theorem TimingOk.eq_of_frameDots {L : Nat} {t : PpuTiming} (h : TimingOk L t) : t = {
    frameDots := t.frameDots
    lineDots := t.frameDots % L
    scanline := t.frameDots / L
    phase := phaseAt (t.frameDots / L) (t.frameDots % L) } := by
  obtain ⟨hline, hscan, hframe, hphase⟩ := h
  obtain ⟨hdiv, hmod⟩ := (Nat.div_mod_unique (by omega)).2
    ⟨show t.lineDots + L * t.scanline = t.frameDots by rw [hframe, Nat.mul_comm, Nat.add_comm], hline⟩
  rw [hdiv, hmod, ← hphase]

/-- The frame counter wraps at the frame's length (R182). -/
theorem ppuDot_frameDots {s : State} (h : s.timing.frameDots < 262 * s.cfg.lineDots) :
    (ppuDot s).timing.frameDots = (s.timing.frameDots + 1) % (262 * s.cfg.lineDots) := by
  rw [ppuDot_timing, lineTiming_frameDots]
  split
  · rw [‹s.timing.frameDots + 1 = _›, Nat.mod_self]
  · rw [Nat.mod_eq_of_lt (by omega)]

theorem ppuDots_frameDots (n : Nat) {s : State} (h : s.timing.frameDots < 262 * s.cfg.lineDots) :
    (ppuDots n s).timing.frameDots = (s.timing.frameDots + n) % (262 * s.cfg.lineDots) := by
  induction n generalizing s with
  | zero => exact (Nat.mod_eq_of_lt h).symm
  | succ n ih =>
    have hcfg : (ppuDot s).cfg = s.cfg := (ppuDots_hostFrame 1 s).cfg
    have hdot := ppuDot_frameDots h
    have hlt : (ppuDot s).timing.frameDots < 262 * (ppuDot s).cfg.lineDots := by
      rw [hdot, hcfg]
      exact Nat.mod_lt _ (by omega)
    rw [ppuDots, ih hlt, hcfg, hdot, Nat.mod_add_mod, Nat.add_right_comm, Nat.add_assoc]

/-- Settles O31: the dots keep the counters in step, so the frame counter after them fixes the others. -/
theorem dotsAdvanceTheCounters : Obligations.DotsAdvanceTheCounters := by
  unfold Obligations.DotsAdvanceTheCounters
  intro s n hL htiming f
  have hf : (ppuDots n s).timing.frameDots = f := ppuDots_frameDots n htiming.frameDots_lt
  rw [(ppuDots_timingOk n hL htiming).eq_of_frameDots, hf]

/-! ## The vblank event -/

theorem raiseVblank_withTiming (s : State) (t : PpuTiming) :
    raiseVblank { s with timing := t } = { raiseVblank s with timing := t } := by
  simp only [raiseVblank_eq]

theorem upgrade_idem (k : Interrupt) (p : Option Interrupt) :
    upgrade k (upgrade k p) = upgrade k p := by
  cases k <;> rcases p with _ | _ | _ | _ <;> rfl

/-- A vblank bit that is set, and an NMI that is requested, stay so (R167, R182). -/
theorem raiseVblank_raiseVblank {s : State} (h : Memory.wf s.ppuReg) :
    raiseVblank (raiseVblank s) = raiseVblank s := by
  have hbit (v : Byte) : v ||| 0x80#8 ||| 0x80#8 = v ||| 0x80#8 := by
    rw [BitVec.or_assoc, BitVec.or_self]
  simp only [raiseVblank_eq, Memory.read_write_same h, hbit, Memory.write_write_same h]
  split <;> simp only [upgrade_idem]

/-- A dot before the threshold only counts (R182). -/
theorem ppuDot_counts {s : State} (h : s.timing.frameDots + 1 ≠ 262 * s.cfg.lineDots) :
    ∃ t : PpuTiming, ppuDot s = { s with timing := t } ∧ t.frameDots = s.timing.frameDots + 1 :=
  ⟨_, by rw [ppuDot_eq, if_neg h], by rw [lineTiming_frameDots]⟩

/-- The dot at the threshold raises vblank and starts the next frame (R182). -/
theorem ppuDot_raises {s : State} (h : s.timing.frameDots + 1 = 262 * s.cfg.lineDots) :
    ∃ t : PpuTiming, ppuDot s = { raiseVblank s with timing := t } ∧ t.frameDots = 0 :=
  ⟨_, by rw [ppuDot_eq, if_pos h], by rw [lineTiming_frameDots]⟩

/-- Dots only count while the frame counter stays below its threshold, and else have raised vblank (R182): a
second crossing finds the bit set and NMI requested. -/
theorem ppuDots_cases (n : Nat) {s : State} (hwf : Memory.wf s.ppuReg)
    (h : s.timing.frameDots < 262 * s.cfg.lineDots) : ∃ t : PpuTiming, ppuDots n s =
      if s.timing.frameDots + n < 262 * s.cfg.lineDots then { s with timing := t }
      else { raiseVblank s with timing := t } := by
  induction n generalizing s with
  | zero => exact ⟨s.timing, (if_pos h).symm⟩
  | succ n ih =>
    by_cases hlast : s.timing.frameDots + 1 = 262 * s.cfg.lineDots
    · have hframe : (raiseVblank s).cfg = s.cfg ∧ Memory.wf (raiseVblank s).ppuReg := by
        rw [raiseVblank_eq]
        exact ⟨rfl, Memory.write_wf hwf _ _⟩
      obtain ⟨t, hdot, hzero⟩ := ppuDot_raises hlast
      obtain ⟨t', hrest⟩ := ih (s := { raiseVblank s with timing := t }) hframe.2
        (by rw [hframe.1, hzero]; omega)
      refine ⟨t', ?_⟩
      rw [ppuDots, hdot, hrest, raiseVblank_withTiming (raiseVblank s), raiseVblank_raiseVblank hwf,
        ite_self, if_neg (by omega)]
    · obtain ⟨t, hdot, hsucc⟩ := ppuDot_counts hlast
      obtain ⟨t', hrest⟩ := ih (s := { s with timing := t }) hwf
        (show t.frameDots < 262 * s.cfg.lineDots by omega)
      refine ⟨t', ?_⟩
      rw [ppuDots, hdot, hrest, raiseVblank_withTiming s]
      exact if_congr (by simp only [hsucc, Nat.add_right_comm, Nat.add_assoc]) rfl rfl

/-- Dots before the threshold (R182). -/
theorem ppuDots_below {n : Nat} {s : State} (hwf : Memory.wf s.ppuReg)
    (h : s.timing.frameDots < 262 * s.cfg.lineDots)
    (hn : s.timing.frameDots + n < 262 * s.cfg.lineDots) :
    ppuDots n s = { s with timing := (ppuDots n s).timing } := by
  obtain ⟨t, ht⟩ := ppuDots_cases n hwf h
  rw [ht, if_pos hn]

/-- Dots over the threshold (R182). -/
theorem ppuDots_across {n : Nat} {s : State} (hwf : Memory.wf s.ppuReg)
    (h : s.timing.frameDots < 262 * s.cfg.lineDots)
    (hn : ¬s.timing.frameDots + n < 262 * s.cfg.lineDots) :
    ppuDots n s = { raiseVblank s with timing := (ppuDots n s).timing } := by
  obtain ⟨t, ht⟩ := ppuDots_cases n hwf h
  rw [ht, if_neg hn]

/-- Settles O32: the dots cross the threshold or they do not. -/
theorem vblankIsRaisedAtTheThreshold : Obligations.VblankIsRaisedAtTheThreshold := by
  unfold Obligations.VblankIsRaisedAtTheThreshold
  intro s n _ hwf h status
  split
  · exact ppuDots_below hwf h ‹_›
  · have hacross := ppuDots_across hwf h ‹_›
    rwa [raiseVblank_eq] at hacross

/-- From the start of a frame, the cycles of a frame or more have set the vblank bit (R181, R182). -/
theorem ppuUpdate_fromFrameStart {s : State} (hs : Inv s) (hzero : s.timing.frameDots = 0) {c : Nat}
    (hc : 262 * s.cfg.lineDots ≤ 3 * c) : (Memory.read (ppuUpdate c s).ppuReg 2).getLsbD 7 = true ∧
      (ppuUpdate c s).timing.frameDots = 3 * c % (262 * s.cfg.lineDots) := by
  have hlt := hs.timing.frameDots_lt
  have hwf := hs.memory.ppuReg.1
  rw [ppuUpdate, Config.dotsPerCycle]
  constructor
  · rw [ppuDots_across hwf hlt (by omega), raiseVblank_eq, Memory.read_write_same hwf,
      BitVec.getLsbD_or]
    exact Bool.or_true _
  · rw [ppuDots_frameDots _ hlt, hzero, Nat.zero_add]

/-- Settles O33: 262 × 114 cycles are 89604 dots, a frame of 342 dots a line, or 262 dots more than one of
341. -/
theorem oneFrameOfCyclesRaisesVblankOnce : Obligations.OneFrameOfCyclesRaisesVblankOnce := by
  unfold Obligations.OneFrameOfCyclesRaisesVblankOnce
  intro s hs hL hzero
  obtain ⟨hbit, hframe⟩ := ppuUpdate_fromFrameStart hs hzero (c := 262 * 114) (by omega)
  refine ⟨hbit, hframe.trans ?_⟩
  obtain hL | hL := hL <;> rw [hL]

end Sys2Proof.Machine
end

section
/-! PROOF. Interrupt requests, the gate and the service (R166 to R172): the slot's priorities, the state that
an open gate leaves, and the returns that undo an entry. -/

namespace Sys2Proof.Machine

open Sys2Proof

/-! ## The slot and the gate -/

theorem requestInterrupt_eq (k : Interrupt) (s : State) :
    requestInterrupt k s = { s with pending := upgrade k s.pending } := rfl

/-- A request that the slot already outranks, or equals, changes nothing (R167). -/
theorem requestInterrupt_eq_self {k : Interrupt} {s : State} (h : upgrade k s.pending = s.pending) :
    requestInterrupt k s = s := by
  rw [requestInterrupt_eq, h]

theorem upgrade_same (k : Interrupt) : upgrade k (some k) = some k := by
  cases k <;> rfl

theorem poll_none {s : State} (h : s.pending = none) : poll s = .next s := by
  simp only [poll, h]

theorem poll_closed {s : State} {k : Interrupt} (hk : s.pending = some k)
    (hgate : gateOpen k s = false) : poll s = .next s := by
  simp [poll, hk, hgate]

/-- A poll with an open gate serves the slot, and the PPU runs on for the cycles of the service (R169, R170,
R174). -/
theorem poll_open {s t : State} {k : Interrupt} (hk : s.pending = some k) (hgate : gateOpen k s = true)
    (ht : enterService k s = .ok () t) : poll s = .next (ppuUpdate t.cfg.intCycles
      (setCycles (s.cycles + t.cfg.intCycles) (setPending none t))) := by
  simp only [poll, hk, hgate, if_true, serviceAndUpdate, service, ht, Res.andThen_ok,
    setPending_cfg]

/-- The gate is closed by I, for every kind or for IRQ alone (R169). -/
theorem gateOpen_eq_false {k : Interrupt} {s : State} (hi : getFlag .i s.cpu.p = true)
    (h : s.cfg.intMode = .gatedAll ∨ k = .irq) : gateOpen k s = false := by
  unfold gateOpen
  split
  · simp [hi]
  · next hm =>
    obtain rfl := h.resolve_left (by simp [hm])
    simp [hi]

/-- It is open where I is clear, and under `INT_MODE = nmos` for every other kind (R169). -/
theorem gateOpen_eq_true {k : Interrupt} {s : State}
    (h : getFlag .i s.cpu.p = false ∨ (s.cfg.intMode = .nmos ∧ k ≠ .irq)) : gateOpen k s = true := by
  unfold gateOpen
  obtain hi | ⟨hm, hk⟩ := h
  · split <;> simp [hi]
  · simp [hm, hk]

/-- Settles O34, from the priorities of the slot and the gate's two modes. -/
theorem requestsUpgradeAndWait : Obligations.RequestsUpgradeAndWait := by
  unfold Obligations.RequestsUpgradeAndWait
  intro s k
  refine ⟨fun h => ?free, fun h hk => ?overIrq, fun h hk => ?overNmi, fun h => ?same,
    fun h hk => ?irqUnderNmi, fun h => ?underReset, poll_none, fun h hi hm => ?closed⟩
  case free => rw [requestInterrupt_eq, h, upgrade]
  case overIrq => obtain rfl | rfl := hk <;> rw [requestInterrupt_eq, h, upgrade]
  case overNmi => rw [requestInterrupt_eq, h, hk, upgrade]
  case same => exact requestInterrupt_eq_self (by rw [h, upgrade_same])
  case irqUnderNmi => exact requestInterrupt_eq_self (by rw [h, hk, upgrade])
  case underReset => exact requestInterrupt_eq_self (by rw [h, upgrade])
  case closed => exact poll_closed h (gateOpen_eq_false hi hm)

/-! ## The service -/

/-- RESET under `INT_MODE = nmos` lowers S with no stack write (R170). -/
theorem enterService_resetNmos {s : State} (hm : s.cfg.intMode = .nmos) :
    enterService .reset s = .ok () { s with cpu := { s.cpu with
      sp := s.cpu.sp - 3#8, p := s.cpu.p ||| 0x04#8, pc := prgWord s.cart 0xFFFC#16 } } := by
  rw [enterService, if_pos ⟨hm, rfl⟩, enterResetNmos]
  simp only [read16_prg (vectorOf_prg .reset).1 (vectorOf_prg .reset).2]
  rfl

/-- Every other service enters the handler of its kind (R170, R171). -/
theorem enterService_handler {k : Interrupt} {s : State}
    (h : ¬(s.cfg.intMode = .nmos ∧ k = .reset)) : enterService k s = .ok () { s with
      ram := pushed (pushed (pushed s.ram s.cpu.sp (highByte (s.cpu.pc - s.cfg.returnOffset)))
        (s.cpu.sp - 1#8) (lowByte (s.cpu.pc - s.cfg.returnOffset)))
        (s.cpu.sp - 2#8) (pushedByService s.cfg s.cpu.p)
      cpu := { s.cpu with
        sp := s.cpu.sp - 3#8, p := s.cpu.p ||| 0x04#8, pc := prgWord s.cart (vectorOf k) } } := by
  have hsp : s.cpu.sp - 1#8 - 1#8 = s.cpu.sp - 2#8 := by bv_omega
  have hsp' : s.cpu.sp - 2#8 - 1#8 = s.cpu.sp - 3#8 := by bv_omega
  rw [enterService, if_neg h, enterHandler_eq _ _ (vectorOf_prg k).1 (vectorOf_prg k).2, hsp, hsp']
  rfl

/-- Settles O35: an open gate serves the slot, and each kind of entry is known as a whole state. -/
theorem interruptServiceEntersTheHandler : Obligations.InterruptServiceEntersTheHandler := by
  unfold Obligations.InterruptServiceEntersTheHandler
  refine ⟨fun s k hk hgate hreset => ?_, fun s hm hk => ?_⟩
  · rw [poll_open hk (gateOpen_eq_true hgate) (enterService_handler hreset)]
    cases k <;> rfl
  · rw [poll_open hk (gateOpen_eq_true (.inr ⟨hm, by decide⟩)) (enterService_resetNmos hm)]
    rfl

/-! ## Returns -/

theorem pushed_wf {m : Memory} (h : Memory.wf m) (sp v : Byte) : Memory.wf (pushed m sp v) :=
  Memory.write_wf h _ v

/-- The stack byte at `sp'` after a push at `sp` (R57). -/
theorem read_pushed {m : Memory} (h : Memory.wf m) (sp sp' v : Byte) :
    Memory.read (pushed m sp v) (0x0100 + sp'.toNat) =
      if sp = sp' then v else Memory.read m (0x0100 + sp'.toNat) := by
  simp only [pushed, Memory.read_write h, Nat.add_left_cancel_iff, BitVec.toNat_inj]

/-- RTI loads P as it was before the entry, if bits 4 and 5 were as the parameters say (R24, R152, R170). -/
theorem pulledStatus_pushedByService {cfg : Config} {p : Byte} (h : StatusOk cfg p) :
    pulledStatus cfg (pushedByService cfg p) = p := by
  unfold pulledStatus pushedByService
  cases hm : cfg.bFlagMode with
  | absent => rfl
  | nmos =>
    obtain ⟨h5, hb⟩ := h hm
    refine eq_of_getFlag_eq fun f => ?_
    simp only [getFlag_eq_getLsbD] at h5 hb ⊢
    cases f <;> simp [-BitVec.getLsbD_eq_getElem, h5, hb]

/-- The state after a service that pushes, as far as a return reads it (R170). -/
theorem service_handler {k : Interrupt} {s : State} (h : ¬(s.cfg.intMode = .nmos ∧ k = .reset)) :
    ∃ t, service k s = .ok () t ∧ t.cfg = s.cfg ∧
      t.ram = pushed (pushed (pushed s.ram s.cpu.sp (highByte (s.cpu.pc - s.cfg.returnOffset)))
        (s.cpu.sp - 1#8) (lowByte (s.cpu.pc - s.cfg.returnOffset)))
        (s.cpu.sp - 2#8) (pushedByService s.cfg s.cpu.p) ∧
      t.cpu = { s.cpu with
        sp := s.cpu.sp - 3#8, p := s.cpu.p ||| 0x04#8, pc := prgWord s.cart (vectorOf k) } := by
  rw [service, enterService_handler h]
  exact ⟨_, rfl, rfl, rfl, rfl⟩

/-- RTI pulls the status byte and the address that lie on the stack from `sp` down (R152). -/
theorem execRti_of_pushed {m : Memory} (hm : Memory.wf m) {t : State} {sp status : Byte} {ret : Word}
    (hram : t.ram = pushed (pushed (pushed m sp (highByte ret)) (sp - 1#8) (lowByte ret))
      (sp - 2#8) status) (hsp : t.cpu.sp = sp - 3#8) : execRti t = .next { t with
    cpu := { t.cpu with p := pulledStatus t.cfg status, sp := sp, pc := ret }
    cycles := 6 } := by
  have h1 : sp - 3#8 + 1#8 = sp - 2#8 := by bv_omega
  have h2 : sp - 3#8 + 2#8 = sp - 1#8 := by bv_omega
  have h3 : sp - 3#8 + 3#8 = sp := by bv_omega
  have h12 : sp - 2#8 ≠ sp - 1#8 := by bv_omega
  have h13 : sp - 2#8 ≠ sp := by bv_omega
  have h23 : sp - 1#8 ≠ sp := by bv_omega
  simp only [execRti_next, stackByte, hram, hsp, h1, h2, h3, h12, h13, h23, read_pushed hm,
    read_pushed (pushed_wf hm _ _), read_pushed (pushed_wf (pushed_wf hm _ _) _ _), if_true, if_false,
    joinBytes_split]

/-- RTS goes on after the address that lies on the stack from `sp` down (R150). -/
theorem execRts_of_pushed {m : Memory} (hm : Memory.wf m) {t : State} {sp : Byte} {ret : Word}
    (hram : t.ram = pushed (pushed m sp (highByte ret)) (sp - 1#8) (lowByte ret))
    (hsp : t.cpu.sp = sp - 2#8) : execRts t = .next { t with
    cpu := { t.cpu with sp := sp, pc := ret + 1#16 }
    cycles := 6 } := by
  have h1 : sp - 2#8 + 1#8 = sp - 1#8 := by bv_omega
  have h2 : sp - 2#8 + 2#8 = sp := by bv_omega
  have h12 : sp - 1#8 ≠ sp := by bv_omega
  simp only [execRts_eq, stackByte, hram, hsp, h1, h2, h12, read_pushed hm,
    read_pushed (pushed_wf hm _ _), if_true, if_false, joinBytes_split]

/-- Settles O36: the pulls of a return read the bytes that the entry pushed. -/
theorem returnsUndoEntries : Obligations.ReturnsUndoEntries := by
  unfold Obligations.ReturnsUndoEntries
  refine fun s hwf => ⟨fun k hstatus hoffset hreset => ?rti, fun nn => ?rts⟩
  case rti =>
    obtain ⟨t, ht, hcfg, hram, hcpu⟩ := service_handler hreset
    refine ⟨t, _, ht, execRti_of_pushed hwf hram (congrArg Cpu.sp hcpu), ?_⟩
    simp only [hcpu, hcfg, pulledStatus_pushedByService hstatus, hoffset, BitVec.sub_zero]
  case rts =>
    have hpc : s.cpu.pc + 2#16 + 1#16 = s.cpu.pc + 3#16 := by bv_omega
    exact ⟨_, _, execJsr_eq nn s, execRts_of_pushed hwf rfl rfl, by rw [hpc]⟩

end Sys2Proof.Machine
end

section
/-! PROOF. The run loop (R174, R175): the cycles that an instruction and a step report (R99, R170), and the
calls of `run` that these bound. -/

namespace Sys2Proof.Machine

open Sys2Proof

/-! ## The cycles of an instruction -/

/-- The reported cycles are 2 or more, and at most 7 and `n` more (R99). -/
def CyclesWithin (n : Nat) (s : State) : Prop := 2 ≤ s.cycles ∧ s.cycles ≤ 7 + n

theorem crossPenalty_le_one (cfg : Config) (crossed : Bool) : crossPenalty cfg crossed ≤ 1 := by
  rw [crossPenalty_eq]
  split <;> omega

theorem dmaPenalty_le (cfg : Config) (ea : Word) : dmaPenalty cfg ea ≤ cfg.dmaCycles := by
  unfold dmaPenalty
  split <;> omega

/-- Base cost and page crossing of a read-class instruction (R99, R206). -/
theorem readCost_bounds (src : Source) (cfg : Config) (crossed : Bool) :
    2 ≤ readCost src + crossPenalty cfg crossed ∧ readCost src + crossPenalty cfg crossed ≤ 7 := by
  have hcross := crossPenalty_le_one cfg crossed
  have hcost : 2 ≤ readCost src ∧ readCost src ≤ 6 := by
    unfold readCost
    split <;> decide
  omega

theorem storeCost_bounds (p : Place) : 2 ≤ storeCost p ∧ storeCost p ≤ 7 := by
  unfold storeCost
  split <;> decide

theorem rmwCost_bounds (p : Place) : 2 ≤ rmwCost p ∧ rmwCost p ≤ 7 := by
  unfold rmwCost
  split <;> decide

theorem branchCost_bounds (taken : Bool) (next target : Word) :
    2 ≤ branchCost taken next target ∧ branchCost taken next target ≤ 7 := by
  unfold branchCost
  split_ifs <;> decide

theorem setCycles_within {n k : Nat} (hk : 2 ≤ k ∧ k ≤ 7) (s : State) :
    CyclesWithin n (setCycles k s) :=
  ⟨hk.1, hk.2.trans (Nat.le_add_right 7 n)⟩

theorem readClass_cycles {src : Source} {op : Config → Byte → Cpu → Cpu} {s t : State}
    (h : readClass src op s = .next t) : CyclesWithin s.cfg.dmaCycles t := by
  cases hr : sourceRead src s with
  | err f u => rw [readClass_err hr] at h; cases h
  | ok m u =>
    rw [readClass_ok hr] at h
    cases h
    exact setCycles_within (readCost_bounds _ _ _) _

/-- An instruction that writes memory, and perhaps starts an OAM DMA. -/
theorem retire_within {cost : Nat} (h : 2 ≤ cost ∧ cost ≤ 7) (length : Nat) (cfg : Config)
    (ea : Word) (s : State) :
    CyclesWithin cfg.dmaCycles (retire length (cost + dmaPenalty cfg ea) s) := by
  have hdma := dmaPenalty_le cfg ea
  constructor <;> rw [retire_cycles] <;> omega

theorem writeClass_cycles {p : Place} {value : Cpu → Byte} {s t : State}
    (h : writeClass p value s = .next t) : CyclesWithin s.cfg.dmaCycles t := by
  cases hw : write8 (placeEff p s).addr (value s.cpu) s with
  | err f u => rw [writeClass_err hw] at h; cases h
  | ok _ u =>
    rw [writeClass_ok hw] at h
    cases h
    exact retire_within (storeCost_bounds p) _ _ _ _

theorem modifyClass_cycles {p : Place} {alu : Byte → Byte → Byte × Byte} {s t : State}
    (h : modifyClass p alu s = .next t) : CyclesWithin s.cfg.dmaCycles t := by
  cases hr : read8 (placeEff p s).addr s with
  | err f u => rw [modifyClass_read_err hr] at h; cases h
  | ok v u =>
    cases hw : write8 (placeEff p s).addr (alu v s.cpu.p).1 u with
    | err f w => rw [modifyClass_write_err hr hw] at h; cases h
    | ok _ w =>
      rw [modifyClass_ok hr hw] at h
      cases h
      exact retire_within (rmwCost_bounds p) _ _ _ _

theorem finish_andThen_cycles {α : Type} {s t : State} {r : Res α} {k : α → State → State} {n : Nat}
    (hk : ∀ v u, CyclesWithin n (k v u))
    (h : finish s (r.andThen fun v u => .ok () (k v u)) = .next t) : CyclesWithin n t := by
  obtain ⟨v, u, -, rfl⟩ := finish_andThen_eq_next h
  exact hk v u

/-- An instruction that goes on reports 2 to 7 cycles, and those of one OAM DMA at most (R99, R194). -/
theorem exec_cycles {i : Instr} {s t : State} (h : exec i s = .next t) :
    CyclesWithin s.cfg.dmaCycles t := by
  cases i
  case ldaIzx | ldaZp | ldaAbs | ldaIzy | ldaZpx | ldaAby | ldaAbx =>
    exact readClass_cycles (show ldaFrom _ s = _ from h)
  case ldxZp | ldxAbs | ldxZpy | ldxAby =>
    exact readClass_cycles (show ldxFrom _ s = _ from h)
  case ldyZp | ldyAbs | ldyZpx | ldyAbx =>
    exact readClass_cycles (show ldyFrom _ s = _ from h)
  case adcIzx | adcZp | adcAbs | adcIzy | adcZpx | adcAby | adcAbx =>
    exact readClass_cycles (show adcFrom _ s = _ from h)
  case sbcIzx | sbcZp | sbcAbs | sbcIzy | sbcZpx | sbcAby | sbcAbx =>
    exact readClass_cycles (show sbcFrom _ s = _ from h)
  case andIzx | andZp | andAbs | andIzy | andZpx | andAby | andAbx =>
    exact readClass_cycles (show andFrom _ s = _ from h)
  case oraIzx | oraZp | oraAbs | oraIzy | oraZpx | oraAby | oraAbx =>
    exact readClass_cycles (show oraFrom _ s = _ from h)
  case eorIzx | eorZp | eorAbs | eorIzy | eorZpx | eorAby | eorAbx =>
    exact readClass_cycles (show eorFrom _ s = _ from h)
  case cmpIzx | cmpZp | cmpAbs | cmpIzy | cmpZpx | cmpAby | cmpAbx =>
    exact readClass_cycles (show cmpFrom _ s = _ from h)
  case cpxZp | cpxAbs => exact readClass_cycles (show cpxFrom _ s = _ from h)
  case cpyZp | cpyAbs => exact readClass_cycles (show cpyFrom _ s = _ from h)
  case bitZp | bitAbs => exact readClass_cycles (show bitFrom _ s = _ from h)
  case ldaImm | ldxImm | ldyImm | adcImm | sbcImm | andImm | oraImm | eorImm | cmpImm
      | cpxImm | cpyImm =>
    cases h
    exact setCycles_within (readCost_bounds _ _ _) _
  case staIzx | staZp | staAbs | staIzy | staZpx | staAby | staAbx =>
    exact writeClass_cycles (show staTo _ s = _ from h)
  case stxZp | stxAbs | stxZpy => exact writeClass_cycles (show stxTo _ s = _ from h)
  case styZp | styAbs | styZpx => exact writeClass_cycles (show styTo _ s = _ from h)
  case incZp | incAbs | incZpx | incAbx => exact modifyClass_cycles (show incAt _ s = _ from h)
  case decZp | decAbs | decZpx | decAbx => exact modifyClass_cycles (show decAt _ s = _ from h)
  case aslZp | aslAbs | aslZpx | aslAbx => exact modifyClass_cycles (show aslAt _ s = _ from h)
  case lsrZp | lsrAbs | lsrZpx | lsrAbx => exact modifyClass_cycles (show lsrAt _ s = _ from h)
  case rolZp | rolAbs | rolZpx | rolAbx => exact modifyClass_cycles (show rolAt _ s = _ from h)
  case rorZp | rorAbs | rorZpx | rorAbx => exact modifyClass_cycles (show rorAt _ s = _ from h)
  case bcc | bcs | beq | bmi | bne | bpl | bvc | bvs =>
    cases h
    exact setCycles_within (branchCost_bounds _ _ _) _
  case tax | tay | txa | tya | tsx | txs | inx | iny | dex | dey | aslAcc | lsrAcc | rolAcc | rorAcc
      | jmpAbs | nop | clc | sec | cli | sei | cld | sed | clv =>
    cases h
    exact setCycles_within (by decide) _
  case jmpInd | jsr | rts | brk | rti | pha | php | pla | plp =>
    exact finish_andThen_cycles (fun _ _ => setCycles_within (by decide) _) h

/-! ## The cycles of a step -/

theorem ppuUpdate_cycles (c : Nat) (s : State) : (ppuUpdate c s).cycles = s.cycles := by
  rw [ppuUpdate, ppuDots_frame]

theorem ppuUpdate_cfg (c : Nat) (s : State) : (ppuUpdate c s).cfg = s.cfg :=
  (ppuDots_hostFrame _ s).cfg

/-- A poll adds the cycles of one service at most (R169, R170). -/
theorem poll_cycles {s t : State} (h : poll s = .next t) :
    t.cycles = s.cycles ∨ t.cycles = s.cycles + s.cfg.intCycles := by
  cases hk : s.pending with
  | none =>
    rw [poll_none hk] at h
    cases h
    exact .inl rfl
  | some k =>
    cases hgate : gateOpen k s with
    | false =>
      rw [poll_closed hk hgate] at h
      cases h
      exact .inl rfl
    | true =>
      obtain ⟨v, hv⟩ := service_ok k s
      obtain ⟨_, u, hu, -⟩ := Res.andThen_eq_ok hv
      rw [poll_open hk hgate hu] at h
      cases h
      rw [ppuUpdate_cycles, setCycles_cycles, (enterService_completed hu).hostFrame.cfg]
      exact .inr rfl

/-- The most cycles a step may report (R99, R170): an instruction's, an OAM DMA's and a service's. -/
def mostCycles (cfg : Config) : Nat := 7 + cfg.dmaCycles + cfg.intCycles

theorem step_cycles {s t : State} (hrun : Running s) (h : step s = .next t) :
    2 ≤ t.cycles ∧ t.cycles ≤ mostCycles s.cfg := by
  obtain ⟨i, u, v, hf, he, ha⟩ := step_next hrun h
  have hu : Accessed s u := by simpa [hf] using fetch_accessed s
  have hcfg : v.cfg = s.cfg := (exec_completed he).hostFrame.cfg.trans hu.frame.cfg
  obtain ⟨hleast, hmost⟩ := exec_cycles he
  rw [hu.frame.cfg] at hmost
  have hpoll := poll_cycles ha
  rw [ppuUpdate_cycles, ppuUpdate_cfg, hcfg] at hpoll
  unfold mostCycles
  omega

/-- A core goes on running through every step that goes on (R174). -/
theorem step_running_next {s t : State} (hrun : Running s) (h : step s = .next t) : Running t :=
  have hkept := step_hostFrame hrun h
  ⟨hkept.fault.trans hrun.1, hkept.paused.trans hrun.2⟩

/-! ## The loop -/

/-- With a fault, past the budget or paused, the loop returns at once (R164, R174, R175). -/
theorem runLoop_done {budget consumed : Nat} {s : State}
    (h : s.fault.isSome = true ∨ budget < consumed ∨ s.paused = true) (fuel : Nat) :
    runLoop budget fuel consumed s = { consumed := consumed, fault := s.fault, state := s } := by
  cases fuel with
  | zero => rfl
  | succ fuel =>
    rw [runLoop, if_pos]
    simpa only [Bool.or_eq_true, decide_eq_true_eq, or_assoc] using h

/-- The loop of a running core goes on while its budget is not exceeded (R174). -/
theorem runLoop_not_done {budget consumed : Nat} {s : State} (hrun : Running s)
    (hbudget : consumed ≤ budget) :
    ¬(s.fault.isSome || decide (budget < consumed) || s.paused) = true := by
  simp [hrun.1, hrun.2, hbudget]

theorem runLoop_next {budget consumed : Nat} {s t : State} (hrun : Running s)
    (hbudget : consumed ≤ budget) (h : step s = .next t) (fuel : Nat) :
    runLoop budget (fuel + 1) consumed s = runLoop budget fuel (consumed + t.cycles) t := by
  rw [runLoop, if_neg (runLoop_not_done hrun hbudget), h]

theorem runLoop_fault {budget consumed : Nat} {s : State} {f : Fault} (hrun : Running s)
    (hbudget : consumed ≤ budget) (h : step s = .fault f) (fuel : Nat) :
    runLoop budget (fuel + 1) consumed s =
      { consumed := consumed, fault := some (faultRecord f), state := faultState f } := by
  rw [runLoop, if_neg (runLoop_not_done hrun hbudget), h]

/-- Settles O11: the step repeats the recorded fault, and the loop returns before its first iteration. -/
theorem faultedCoreStaysHalted : Obligations.FaultedCoreStaysHalted := by
  unfold Obligations.FaultedCoreStaysHalted
  refine fun s r h => ⟨by rw [step, h]; rfl, fun budget => ?_⟩
  rw [run, runLoop_done (.inl (by rw [h]; rfl)), h]

/-- Settles O15: the loop returns before its first iteration. -/
theorem pausedRunReturnsAtOnce : Obligations.PausedRunReturnsAtOnce := by
  unfold Obligations.PausedRunReturnsAtOnce
  exact fun s => ⟨rfl, rfl, fun budget => runLoop_done (.inr (.inr rfl)) (budget + 1)⟩

/-- Settles O13: one step reports 2 cycles or more, so it ends a run whose budget is 0 or 1. -/
theorem runZeroAndOneAreOneStep : Obligations.RunZeroAndOneAreOneStep := by
  unfold Obligations.RunZeroAndOneAreOneStep
  refine fun s budget hrun hbudget => ⟨fun t h => ?_, fun f h => ?_⟩
  · have hcycles := (step_cycles hrun h).1
    rw [run, runLoop_next hrun (Nat.zero_le budget) h, runLoop_done (.inr (.inl (by omega))),
      (step_running_next hrun h).1, Nat.zero_add]
  · rw [run, runLoop_fault hrun (Nat.zero_le budget) h]

/-- The loop with fuel for the rest of its budget ends by a fault or just past the budget (R174): every
iteration consumes 2 cycles or more, and begins within the budget. -/
theorem runLoop_ends {budget fuel consumed : Nat} {s : State} {r : RunResult} (hrun : Running s)
    (hr : runLoop budget fuel consumed s = r) (hfuel : budget < consumed + fuel)
    (hconsumed : consumed ≤ budget + mostCycles s.cfg) :
    (r.fault ≠ none ∨ budget < r.consumed) ∧ r.consumed ≤ budget + mostCycles s.cfg := by
  induction fuel generalizing consumed s with
  | zero =>
    subst hr
    exact ⟨.inr hfuel, hconsumed⟩
  | succ fuel ih =>
    by_cases hbudget : budget < consumed
    · rw [runLoop_done (.inr (.inl hbudget))] at hr
      subst hr
      exact ⟨.inr hbudget, hconsumed⟩
    cases h : step s with
    | next t =>
      have hcycles := step_cycles hrun h
      rw [runLoop_next hrun (by omega) h] at hr
      rw [← (step_hostFrame hrun h).cfg] at hcycles ⊢
      exact ih (step_running_next hrun h) hr (by omega) (by omega)
    | fault f =>
      rw [runLoop_fault hrun (by omega) h] at hr
      subst hr
      exact ⟨.inl (Option.some_ne_none _), hconsumed⟩
    | refused r => exact absurd h (step_not_refused s r)

/-- Settles O14, from the cycles a step may report, by induction on the loop's fuel. -/
theorem runEndsJustPastItsBudget : Obligations.RunEndsJustPastItsBudget := by
  unfold Obligations.RunEndsJustPastItsBudget
  intro s budget hrun most r
  exact ⟨fun t h => step_cycles hrun h,
    runLoop_ends hrun (r := r) rfl (by omega) (Nat.zero_le _)⟩

end Sys2Proof.Machine
end

section
/-! PROOF. The launch: which images it accepts (R195, R196), the power-on state (R197 to R200), and that this
state meets the invariant. -/

namespace Sys2Proof.Machine

open Sys2Proof

/-! ## The status register at power-on -/

/-- Power-on sets I whatever `INIT_P` is (R199). -/
theorem getFlag_i_powerOnStatus (cfg : Config) (v : Byte) : getFlag .i (powerOnStatus cfg v) = true := by
  cases hm : cfg.bFlagMode <;> simp [powerOnStatus, hm, getFlag_eq_getLsbD]

/-- The status at power-on has bits 4 and 5 as the parameters say (R24, R199). -/
theorem statusOk_powerOnStatus (cfg : Config) (v : Byte) : StatusOk cfg (powerOnStatus cfg v) := by
  intro hm
  simp [powerOnStatus, hm, getFlag_eq_getLsbD]

/-! ## The power-on state -/

/-- The direct read of the RESET vector is the word at 0xFFFC (R199). -/
theorem resetVector_eq (c : Cartridge) : resetVector c = prgWord c 0xFFFC#16 := rfl

/-- VRAM at power-on: CHR below 0x2000, the launch input from there on (R66, R197). -/
theorem vramRead_powerOn {c : Cartridge} (hchr : Memory.within 8192 c.chr) (cfg : Config) (l : Launch)
    (a : Word) : vramRead a (powerOn cfg l c) =
      if a.toNat < 0x2000 then Memory.read c.chr a.toNat else Memory.read l.initVram a.toNat :=
  Memory.read_overlay hchr a.toNat

/-- Settles O59: PC is the word at the RESET vector, which lies in the PRG window, I is set in both
`B_FLAG_MODE`s, and VRAM is the overlay of CHR; the other fields are the launch's own. -/
theorem powerOnState : Obligations.PowerOnState := by
  unfold Obligations.PowerOnState
  intro cfg l c hchr s
  have hvector : read16 0xFFFC#16 s = .ok s.cpu.pc s := read16_prg (by decide) (by decide) s
  exact ⟨rfl, rfl, rfl, rfl, rfl, rfl, rfl, rfl, getFlag_i_powerOnStatus cfg l.initP, hvector,
    rfl, rfl, rfl, rfl, rfl, rfl, rfl, vramRead_powerOn hchr cfg l⟩

/-! ## The invariant at power-on -/

/-- The arrays of a cartridge are arrays of their sizes (R8, R32). -/
def CartridgeOk (c : Cartridge) : Prop :=
  (Memory.wf c.prg ∧ Memory.within c.banks.size c.prg) ∧ (Memory.wf c.chr ∧ Memory.within 8192 c.chr)

/-- The counters after PPU reset are the start of a frame (R198). -/
theorem timingOk_reset {L : Nat} (hL : 341 ≤ L) : TimingOk L PpuTiming.reset where
  line := Nat.lt_of_lt_of_le (by decide) hL
  scanline := by decide
  frame := (Nat.zero_mul L).symm
  phase := rfl

/-- Power-on meets the invariant, for launch inputs and a cartridge of their sizes (R197 to R199). -/
theorem powerOn_inv {cfg : Config} {l : Launch} {c : Cartridge} (hcfg : Config.wf cfg)
    (hl : Launch.wf l) (hc : CartridgeOk c) : Inv (powerOn cfg l c) := by
  obtain ⟨hram, hppuReg, ⟨hvram, hvramSize⟩, hoam⟩ := hl
  obtain ⟨hprg, hchr, hchrSize⟩ := hc
  have hoverlay : Memory.wf (Memory.overlay 8192 c.chr l.initVram) ∧
      Memory.within 65536 (Memory.overlay 8192 c.chr l.initVram) :=
    ⟨Memory.overlay_wf hchr hchrSize hvram, Memory.overlay_within (by decide) hchrSize hvramSize⟩
  exact {
    config := hcfg
    memory := ⟨hram, hppuReg, hoverlay, hoam, hprg, ⟨hchr, hchrSize⟩⟩
    timing := timingOk_reset hcfg
    status := statusOk_powerOnStatus cfg l.initP }

/-- Settles O17: the reset state is the power-on of launch inputs and a cartridge that hold no cells. -/
theorem resetMeetsInvariant : Obligations.ResetMeetsInvariant := by
  unfold Obligations.ResetMeetsInvariant
  have hreset : State.reset = powerOn Config.default Launch.zero Cartridge.blank := rfl
  exact ⟨hreset ▸ powerOn_inv (by decide) (by decide) ⟨by decide, by decide⟩, hreset⟩

/-! ## The arrays of an image -/

theorem imageArray_wf (img : List Byte) (a n : Nat) : Memory.wf (imageArray img a n) :=
  Memory.ofBytes_wf 0 _

theorem imageArray_within (img : List Byte) (a n : Nat) : Memory.within n (imageArray img a n) := by
  intro p hp
  have hlt := (Memory.mem_ofBytes hp).2
  rw [Nat.zero_add] at hlt
  exact Nat.lt_of_lt_of_le hlt (List.length_take_le n _)

/-- Cell `k` of an array of the image is the image's byte `a + k` (R195). -/
theorem read_imageArray {n k : Nat} (hk : k < n) (img : List Byte) (a : Nat) :
    Memory.read (imageArray img a n) k = img.getD (a + k) 0x00#8 := by
  have hread := Memory.read_ofBytes 0 k ((img.drop a).take n)
  rw [Nat.zero_add] at hread
  simp [imageArray, hread, List.getD_eq_getElem?_getD, List.getElem?_take_of_lt hk, unlisted]

theorem cartridgeOf_ok (img : List Byte) (banks : PrgBanks) : CartridgeOk (cartridgeOf img banks) :=
  ⟨⟨imageArray_wf _ _ _, imageArray_within _ _ _⟩, ⟨imageArray_wf _ _ _, imageArray_within _ _ _⟩⟩

/-- No image has a trainer: bit 2 of `ctrl1 | 4` is set, and that of 1 is not (R195). -/
theorem prgStart_eq (ctrl1 : Byte) : prgStart ctrl1 = 16 := by
  refine if_neg fun h => ?_
  have hbit := congrArg (BitVec.getLsbD · 2) h
  simp at hbit

/-! ## The checks of the loader -/

/-- The magic number byte by byte; a missing byte is not one of it (R195). -/
theorem goodMagic_iff (img : List Byte) : goodMagic img = true ↔
    (imageByte img 0).toNat = 0x4E ∧ (imageByte img 1).toNat = 0x45 ∧
      (imageByte img 2).toNat = 0x53 ∧ (imageByte img 3).toNat = 0x1A := by
  rcases img with _ | ⟨b0, _ | ⟨b1, _ | ⟨b2, _ | ⟨b3, rest⟩⟩⟩⟩ <;>
    simp [goodMagic, imageByte, ← BitVec.toNat_inj]

/-- The mapper number is made of the high digits of bytes 7 and 6 (R195). -/
theorem toNat_mapperNumber (ctrl1 ctrl2 : Byte) :
    (mapperNumber ctrl1 ctrl2).toNat = ctrl2.toNat / 16 * 16 + ctrl1.toNat / 16 := by
  rw [mapperNumber, BitVec.toNat_add, BitVec.toNat_ushiftRight, Nat.shiftRight_eq_div_pow,
    toNat_and_0xF0, toNat_and_0xF0, highDigit, highDigit]
  omega

/-- The bank count is the image's byte (R196). -/
theorem size_of_prgBanksOf {n : Byte} {banks : PrgBanks} (h : prgBanksOf n = some banks) :
    banks.size = n.toNat * 16384 := by
  unfold prgBanksOf at h
  split_ifs at h with hone htwo
  · cases h
    rw [hone]
    rfl
  · cases h
    rw [htwo]
    rfl

/-- Mapper 0 places one bank or two (R196). -/
theorem prgBanksOf_eq_none (n : Byte) : prgBanksOf n = none ↔ ¬(n.toNat = 1 ∨ n.toNat = 2) := by
  simp only [prgBanksOf, ← BitVec.toNat_inj]
  split_ifs <;> simp_all

section
variable {img : List Byte}

/-- Without the magic number, or without the bytes to check, the image is corrupt (R196, log 14). -/
theorem loadImage_corruptHeader (h : goodMagic img = false ∨ img.length < 8) :
    loadImage img = .error .corruptRomImage := by
  unfold loadImage
  split
  · rfl
  · exact if_pos (h.resolve_left ‹_›)

variable (hmagic : goodMagic img = true) (hlen : 8 ≤ img.length)
include hmagic hlen

theorem loadImage_otherMapper (h : mapperNumber (imageByte img 6) (imageByte img 7) ≠ 0x00#8) :
    loadImage img = .error (.unsupportedMapper (mapperNumber (imageByte img 6) (imageByte img 7))) := by
  simp [loadImage, hmagic, Nat.not_lt.2 hlen, h]

variable (hmapper : mapperNumber (imageByte img 6) (imageByte img 7) = 0x00#8)
include hmapper

theorem loadImage_otherBanks
    (h : prgBanksOf (imageByte img 4) = none ∨ imageByte img 5 ≠ 0x01#8) :
    loadImage img = .error (.unsupportedMapper 0x00#8) := by
  cases hbanks : prgBanksOf (imageByte img 4) with
  | none => simp [loadImage, hmagic, Nat.not_lt.2 hlen, hmapper, hbanks]
  | some banks =>
    have hchr := h.resolve_left (by simp [hbanks])
    simp [loadImage, hmagic, Nat.not_lt.2 hlen, hmapper, hbanks, hchr]

/-- A header that mapper 0 accepts leaves the length to check (R196). -/
theorem loadImage_mapperZero {banks : PrgBanks} (hbanks : prgBanksOf (imageByte img 4) = some banks)
    (hchr : imageByte img 5 = 0x01#8) : loadImage img =
      if img.length < 16 + banks.size + 8192 then .error .corruptRomImage
      else .ok (cartridgeOf img banks) := by
  simp [loadImage, hmagic, Nat.not_lt.2 hlen, hmapper, hbanks, hchr]

end

/-- An accepted image loads as its cartridge (R196). -/
theorem loadImage_ok {img : List Byte} {c : Cartridge} (h : loadImage img = .ok c) :
    ∃ banks, c = cartridgeOf img banks := by
  unfold loadImage at h
  cases hbanks : prgBanksOf (imageByte img 4) with
  | none =>
    simp only [hbanks] at h
    split_ifs at h
  | some banks =>
    simp only [hbanks] at h
    split_ifs at h
    exact ⟨banks, (Except.ok.inj h).symm⟩

/-! ## The launch -/

theorem launch_of_ok {img : List Byte} {c : Cartridge} (h : loadImage img = .ok c) (cfg : Config)
    (l : Launch) : launch cfg l img = .next (powerOn cfg l c) := by
  rw [launch, h]

theorem launch_of_error {img : List Byte} {r : Refusal} (h : loadImage img = .error r) (cfg : Config)
    (l : Launch) : launch cfg l img = .refused r := by
  rw [launch, h]

/-- Settles O18: an accepted image is cut into arrays of their sizes, whatever it holds. -/
theorem powerOnMeetsInvariant : Obligations.PowerOnMeetsInvariant := by
  unfold Obligations.PowerOnMeetsInvariant
  intro cfg l img s hcfg hl h
  cases hload : loadImage img with
  | error r => cases (launch_of_error hload cfg l).symm.trans h
  | ok c =>
    obtain ⟨banks, rfl⟩ := loadImage_ok hload
    cases (launch_of_ok hload cfg l).symm.trans h
    exact powerOn_inv hcfg hl (cartridgeOf_ok img banks)

/-- The cartridge of an image, read from byte 16 on (R195, R196). -/
theorem cartridgeOf_read (img : List Byte) (banks : PrgBanks) :
    (∀ k, k < banks.size →
      Memory.read (cartridgeOf img banks).prg k = img.getD (16 + k) 0x00#8) ∧
    (∀ k, k < 8192 →
      Memory.read (cartridgeOf img banks).chr k = img.getD (16 + banks.size + k) 0x00#8) := by
  rw [cartridgeOf, prgStart_eq]
  exact ⟨fun k hk => read_imageArray hk img 16, fun k hk => read_imageArray hk img (16 + banks.size)⟩

/-- Settles O58: each check of the loader, in the spec's order, on the numbers of the header. -/
theorem launchAcceptsMapperZeroImages : Obligations.LaunchAcceptsMapperZeroImages := by
  unfold Obligations.LaunchAcceptsMapperZeroImages
  intro cfg l img refusal
  have refused {r : Refusal} (h : loadImage img = .error r) : refusal r := ⟨h, launch_of_error h cfg l⟩
  refine ⟨fun hshort => refused (loadImage_corruptHeader (.inr hshort)), fun hlen => ?_⟩
  intro b mapper size
  split
  case isTrue hbad =>
    have hmagic := Bool.eq_false_iff.2 fun h => hbad ((goodMagic_iff img).1 h)
    exact refused (loadImage_corruptHeader (.inl hmagic))
  case isFalse hgood =>
  have hmagic : goodMagic img = true := (goodMagic_iff img).2 (not_not.1 hgood)
  have hnumber : (mapperNumber (imageByte img 6) (imageByte img 7)).toNat = mapper :=
    toNat_mapperNumber _ _
  split
  case isTrue hother =>
    have hload := loadImage_otherMapper hmagic hlen fun h =>
      hother (hnumber.symm.trans (congrArg BitVec.toNat h))
    rw [← hnumber, BitVec.ofNat_toNat, BitVec.setWidth_eq]
    exact refused hload
  case isFalse hzero =>
  have hmapper : mapperNumber (imageByte img 6) (imageByte img 7) = 0x00#8 :=
    BitVec.eq_of_toNat_eq (hnumber.trans (not_not.1 hzero))
  split
  case isTrue hother =>
    refine refused (loadImage_otherBanks hmagic hlen hmapper ?_)
    rcases not_and_or.1 hother with hcount | hchr
    · exact .inl ((prgBanksOf_eq_none _).2 hcount)
    · exact .inr fun h => hchr (congrArg BitVec.toNat h)
  case isFalse hplaced =>
  obtain ⟨hcount, hone⟩ := not_not.1 hplaced
  obtain ⟨banks, hbanks⟩ : ∃ banks, prgBanksOf (imageByte img 4) = some banks :=
    Option.ne_none_iff_exists'.1 fun h => (prgBanksOf_eq_none _).1 h hcount
  have hsize : banks.size = size := size_of_prgBanksOf hbanks
  have hload := loadImage_mapperZero hmagic hlen hmapper hbanks (BitVec.eq_of_toNat_eq hone)
  obtain ⟨hprg, hchr⟩ := cartridgeOf_read img banks
  rw [hsize] at hload hprg hchr
  split
  case isTrue hshort => exact refused (hload.trans (if_pos hshort))
  case isFalse hfull =>
    have hok := hload.trans (if_neg hfull)
    exact ⟨_, hok, launch_of_ok hok cfg l, rfl, rfl, hsize, hprg, hchr⟩

end Sys2Proof.Machine
end
